-- ==== Sys2Proof/Word.lean ====
section
/-! DEFINITION. Sys2Proof/Word.lean: the word types of OPF and the plainest arithmetic on them.
Values are computed as exact naturals and narrowed explicitly into a register (00_scope.md R8). -/

namespace Sys2Proof

/-- A packet byte (R7). -/
abbrev Byte := BitVec 8

/-- A 32-bit register word (R23). -/
abbrev Word := BitVec 32

/-- Narrow an exact natural into an offset or length register, `LEN_W` = 16 bits (R6). -/
abbrev word16 (n : Nat) : BitVec 16 := BitVec.ofNat 16 n

/-- Narrow an exact natural into an accumulator, `ACC_W` = 18 bits (R6). -/
abbrev word18 (n : Nat) : BitVec 18 := BitVec.ofNat 18 n

/-- One bit of a word, as a flag. -/
abbrev flagBit {w : Nat} (x : BitVec w) (k : Nat) : Bool := x.getLsbD k

end Sys2Proof
end

