-- ==== Sys2Proof/Config.lean ====
section
/-! DEFINITION. Sys2Proof/Config.lean: what one OPF implementation fixes (00_scope.md R6), the numbers the spec states,
and the free values: opaque constants no proof can evaluate. -/

namespace Sys2Proof

/-- Where the explicit lengths of a Code 3 VBR packet stand (R6, R170, R171). -/
inductive VbrLayout where
  | interleaved
  | grouped
  deriving DecidableEq, Repr

/-- The parameters one machine is built with (R6). No step changes them. `LATENCY` is not among them: the model has no time
(log 19). -/
structure Params where
  /-- `PKT_MAX`, 1 to 65535: how many cells the packet buffer has. -/
  pktMax : Nat
  /-- `VBR_LAYOUT`. -/
  layout : VbrLayout
  /-- `BASE`, OPEN: the address of the register block in the host's address space (log 2). -/
  base   : Nat
  deriving DecidableEq, Repr

/-- The range R6 allows `PKT_MAX`. -/
def Params.ok (p : Params) : Bool := decide (1 ≤ p.pktMax) && decide (p.pktMax ≤ 65535)

/-- The default parameters of R6 (log 3); `BASE` has none, and 0 stands there (log 2). -/
def Params.default : Params := ⟨65535, .interleaved, 0⟩

namespace Config

/-- `MAX_FRAME` (R6): the largest frame strict mode accepts, in bytes. -/
def maxFrame : Nat := 1275

/-- `MAX_DUR_MS` = 120 ms (R6) in the half-milliseconds of R122. -/
def maxDurHalf : Nat := 240

/-- `PKT_WIN_OFF` (R6): the offset of the packet window from `BASE`. -/
def pktWinOff : Nat := 0x10000

/-- One past the last offset of the address map (R74). -/
def mapEnd : Nat := 0x20000

/-- FREE VALUE (log 6, log 14): the word a register read returns where the spec allows any value (R230). -/
opaque freeWord : Nat → Word

/-- FREE VALUE (log 5): the byte a host read returns for a packet cell nothing has written (R65, D38). -/
opaque freeByte : Nat → Byte

end Config

end Sys2Proof
end

