-- ==== Sys2Proof/Syntax.lean ====
section
/-! DEFINITION. Sys2Proof/Syntax.lean: one constructor of `Instr` per row of spec/opcode_table.json (30_encoding.md R93),
and the formats its rows are written in (R80). -/

namespace Sys2Proof

/-- The packet formats of R80. A TOC byte is decoded by three rows, one on each of its fields (R81, R93), so the TOC
format has three views. -/
inductive Format where
  | tocConfig   -- TOC bits 7:3
  | tocStereo   -- TOC bit 2
  | tocCode     -- TOC bits 1:0
  | c3h         -- the Code 3 header byte (R83)
  | len         -- a frame-length field (R84)
  | pad         -- one byte of the padding-length chain (R85)
  deriving DecidableEq, Repr

/-- The data of a packet window write: one cell, or four cells with the lowest in bits 7:0 (20_memory.md R65). -/
inductive PktData where
  | byte (b : Byte)
  | word (w : Word)
  deriving DecidableEq, Repr

/-- The rows of the opcode table. The operands are the fields that the row leaves free and that its meaning reads. -/
inductive Instr where
  /- TOC bits 1:0 (R81, R82): rules R162, R163, R164, R165. -/
  | tocCode0
  | tocCode1
  | tocCode2
  | tocCode3
  /- TOC bits 7:3 (R81, R121). -/
  | cfg00
  | cfg01
  | cfg02
  | cfg03
  | cfg04
  | cfg05
  | cfg06
  | cfg07
  | cfg08
  | cfg09
  | cfg10
  | cfg11
  | cfg12
  | cfg13
  | cfg14
  | cfg15
  | cfg16
  | cfg17
  | cfg18
  | cfg19
  | cfg20
  | cfg21
  | cfg22
  | cfg23
  | cfg24
  | cfg25
  | cfg26
  | cfg27
  | cfg28
  | cfg29
  | cfg30
  | cfg31
  /- TOC bit 2 (R81, R120). -/
  | tocMono
  | tocStereo
  /- Code 3 header bits 7:6 (R83), with the frame count M in bits 5:0. -/
  | c3Cbr (m : BitVec 6)
  | c3CbrPad (m : BitVec 6)
  | c3Vbr (m : BitVec 6)
  | c3VbrPad (m : BitVec 6)
  /- Frame-length field (R84). -/
  | len1 (b0 : Byte)
  | len2 (b0 b1 : Byte)
  /- Padding-length chain byte (R85). -/
  | padCont
  | padTerm (t : Byte)
  /- Host commands (R89), with the data word. -/
  | setCtrl (d : Word)
  | start (d : Word)
  | ackDone (d : Word)
  | setLen (d : Word)
  | writePkt (i : BitVec 16) (v : PktData)
  deriving DecidableEq, Repr

end Sys2Proof
end

