-- ==== Sys2Proof/WellFormed.lean ====
section
/-! DEFINITION. Sys2Proof/WellFormed.lean: which terms of `Instr` are instructions: the operand ranges of the opcode
table's rows (30_encoding.md R84, R85, R89, 20_memory.md R65). -/

namespace Sys2Proof

/-- The operand ranges of a row. Every TOC row, every Code 3 header row, PAD_CONT and SET_LEN admit every operand. -/
def Instr.wellFormed : Instr → Bool
  | .len1 b0 => decide (b0.toNat ≤ 251)                 -- R84: one byte, 0 to 251
  | .len2 b0 _ => decide (252 ≤ b0.toNat)               -- R84: two bytes, the first 252 to 255
  | .padTerm t => decide (t.toNat ≤ 254)                -- R85: the terminal byte, 0 to 254
  | .setCtrl d => !flagBit d 0                          -- R89: bit 0 = 0
  | .start d => flagBit d 0                             -- R89: bit 0 = 1
  | .ackDone d => flagBit d 1                           -- R89: bit 1 = 1
  | .writePkt i (.word _) => decide (i.toNat % 4 = 0)   -- R65: a 32-bit access on a 4-byte boundary
  | .writePkt _ (.byte _) => true
  | .tocCode0 | .tocCode1 | .tocCode2 | .tocCode3 => true
  | .cfg00 | .cfg01 | .cfg02 | .cfg03 | .cfg04 | .cfg05 | .cfg06 | .cfg07
  | .cfg08 | .cfg09 | .cfg10 | .cfg11 | .cfg12 | .cfg13 | .cfg14 | .cfg15
  | .cfg16 | .cfg17 | .cfg18 | .cfg19 | .cfg20 | .cfg21 | .cfg22 | .cfg23
  | .cfg24 | .cfg25 | .cfg26 | .cfg27 | .cfg28 | .cfg29 | .cfg30 | .cfg31 => true
  | .tocMono | .tocStereo => true
  | .c3Cbr _ | .c3CbrPad _ | .c3Vbr _ | .c3VbrPad _ => true
  | .padCont => true
  | .setLen _ => true

end Sys2Proof
end

