-- ==== Sys2Proof/Decode.lean ====
section
/-! DEFINITION. Sys2Proof/Decode.lean: from packet bytes and bus writes to instructions, and back
(30_encoding.md R81 to R93, 20_memory.md R64, R65). Decoding is total and rejects by name. -/

namespace Sys2Proof

/-- Why a decode gives no instruction. No packet byte value is ever the reason (R90): only a missing byte is. -/
inductive DecodeError where
  /-- The field's first byte is not there. -/
  | noByte (f : Format)
  /-- A length field whose first byte is 252 to 255 has no second byte (R84, R140). -/
  | lenCutShort
  /-- A register access that is not a 32-bit access on a 4-byte boundary (R64). -/
  | registerAccess (offset width : Nat)
  /-- A packet window access that is neither 8-bit nor 32-bit on a 4-byte boundary (R65). -/
  | windowAccess (offset width : Nat)
  /-- An offset past the address map of R74. -/
  | outsideMap (offset : Nat)
  /-- A write that is no command and has no effect: a reserved offset, a read-only register (R24), or STATUS with
  bit 1 = 0 (R89). -/
  | noEffect
  deriving DecidableEq, Repr

/-- How an instruction is written: as a packet field of a format, or as a bus write (offset from `BASE`, width in bits,
data), the two ways of R80. -/
inductive Encoding where
  | packet (f : Format) (bytes : List Byte)
  | bus (offset width : Nat) (data : Word)
  deriving DecidableEq, Repr

/-- The row of a configuration index, TOC bits 7:3 (R81, R93). -/
def tocConfigRow (k : BitVec 5) : Instr :=
  match k.toNat with
  | 0 => .cfg00
  | 1 => .cfg01
  | 2 => .cfg02
  | 3 => .cfg03
  | 4 => .cfg04
  | 5 => .cfg05
  | 6 => .cfg06
  | 7 => .cfg07
  | 8 => .cfg08
  | 9 => .cfg09
  | 10 => .cfg10
  | 11 => .cfg11
  | 12 => .cfg12
  | 13 => .cfg13
  | 14 => .cfg14
  | 15 => .cfg15
  | 16 => .cfg16
  | 17 => .cfg17
  | 18 => .cfg18
  | 19 => .cfg19
  | 20 => .cfg20
  | 21 => .cfg21
  | 22 => .cfg22
  | 23 => .cfg23
  | 24 => .cfg24
  | 25 => .cfg25
  | 26 => .cfg26
  | 27 => .cfg27
  | 28 => .cfg28
  | 29 => .cfg29
  | 30 => .cfg30
  | _ => .cfg31

/-- The row of the stereo flag, TOC bit 2 (R81, R93). -/
def tocStereoRow (b : Bool) : Instr := if b then .tocStereo else .tocMono

/-- The row of the Code, TOC bits 1:0 (R81, R82, R93). -/
def tocCodeRow (c : BitVec 2) : Instr :=
  match c.toNat with
  | 0 => .tocCode0
  | 1 => .tocCode1
  | 2 => .tocCode2
  | _ => .tocCode3

/-- The row of a Code 3 header with VBR flag `v`, padding flag `p` and frame count `m` (R83, R93). -/
def c3Row (v p : Bool) (m : BitVec 6) : Instr :=
  match v, p with
  | false, false => .c3Cbr m
  | false, true => .c3CbrPad m
  | true, false => .c3Vbr m
  | true, true => .c3VbrPad m

/-- The Code 3 header byte: bit 7 is v, bit 6 is p, bits 5:0 are M (R83). -/
def c3OfByte (h : Byte) : Instr := c3Row (flagBit h 7) (flagBit h 6) (h.extractLsb' 0 6)

/-- One byte of the padding-length chain: 0xFF goes on, any other value ends the chain (R85). -/
def padOfByte (b : Byte) : Instr := if b = 0xFF then .padCont else .padTerm b

/-- Decode the packet field of format `f` at the head of a list of bytes, and give back the rest. -/
def decodeField (f : Format) (bytes : List Byte) : Except DecodeError (Instr × List Byte) :=
  match f, bytes with
  | f, [] => .error (.noByte f)
  | .tocConfig, b :: rest => .ok (tocConfigRow (b.extractLsb' 3 5), rest)
  | .tocStereo, b :: rest => .ok (tocStereoRow (flagBit b 2), rest)
  | .tocCode, b :: rest => .ok (tocCodeRow (b.extractLsb' 0 2), rest)
  | .c3h, b :: rest => .ok (c3OfByte b, rest)
  | .pad, b :: rest => .ok (padOfByte b, rest)
  | .len, b0 :: rest =>
    if b0.toNat ≤ 251 then .ok (.len1 b0, rest)
    else match rest with
      | [] => .error .lenCutShort
      | b1 :: rest' => .ok (.len2 b0 b1, rest')

/-- The command a write to a register offset is (R89); the offset is below 0x10000 and a multiple of 4. -/
def decodeRegisterWrite (offset : Nat) (d : Word) : Except DecodeError Instr :=
  match offset with
  | 0x00 => .ok (if flagBit d 0 then .start d else .setCtrl d)
  | 0x04 => if flagBit d 1 then .ok (.ackDone d) else .error .noEffect
  | 0x08 => .ok (.setLen d)
  | _ => .error .noEffect

/-- The command a write to cell offset `i` of the packet window is (R65, R89). A write that reaches no cell of the
buffer is a write to a reserved offset (R24, R74; log 26). -/
def decodeWindowWrite (pktMax i width : Nat) (d : Word) : Except DecodeError Instr :=
  if width = 8 then
    if i < pktMax then .ok (.writePkt (word16 i) (.byte (d.extractLsb' 0 8))) else .error .noEffect
  else if width = 32 ∧ i % 4 = 0 then
    if i < pktMax then .ok (.writePkt (word16 i) (.word d)) else .error .noEffect
  else .error (.windowAccess (Config.pktWinOff + i) width)

/-- The command a bus write is, on a machine with `pktMax` cells (R64, R65, R74, R89). -/
def decodeBus (pktMax offset width : Nat) (d : Word) : Except DecodeError Instr :=
  if offset < Config.pktWinOff then
    if width = 32 ∧ offset % 4 = 0 then decodeRegisterWrite offset d
    else .error (.registerAccess offset width)
  else if offset < Config.mapEnd then decodeWindowWrite pktMax (offset - Config.pktWinOff) width d
  else .error (.outsideMap offset)

/-- Decode one written instruction, on a machine with `pktMax` cells. -/
def decode (pktMax : Nat) : Encoding → Except DecodeError Instr
  | .packet f bytes => (decodeField f bytes).map Prod.fst
  | .bus offset width d => decodeBus pktMax offset width d

/-- The header byte of R83. -/
def c3Byte (v p : Bool) (m : BitVec 6) : Byte :=
  (if v then 0x80#8 else 0#8) ||| (if p then 0x40#8 else 0#8) ||| m.setWidth 8

/-- The TOC byte of a configuration, a stereo flag and a Code (R81). -/
def tocByte (cfg : BitVec 5) (stereo : Bool) (code : BitVec 2) : Byte :=
  (cfg.setWidth 8 <<< 3) ||| (if stereo then 0x04#8 else 0#8) ||| code.setWidth 8

/-- The bits of a well-formed instruction, from the encoding tables of R81 to R89. A TOC row fixes one field of the
byte; the other two are 0 here. -/
def encode : Instr → Encoding
  | .tocCode0 => .packet .tocCode [0x00]
  | .tocCode1 => .packet .tocCode [0x01]
  | .tocCode2 => .packet .tocCode [0x02]
  | .tocCode3 => .packet .tocCode [0x03]
  | .cfg00 => .packet .tocConfig [0x00]
  | .cfg01 => .packet .tocConfig [0x08]
  | .cfg02 => .packet .tocConfig [0x10]
  | .cfg03 => .packet .tocConfig [0x18]
  | .cfg04 => .packet .tocConfig [0x20]
  | .cfg05 => .packet .tocConfig [0x28]
  | .cfg06 => .packet .tocConfig [0x30]
  | .cfg07 => .packet .tocConfig [0x38]
  | .cfg08 => .packet .tocConfig [0x40]
  | .cfg09 => .packet .tocConfig [0x48]
  | .cfg10 => .packet .tocConfig [0x50]
  | .cfg11 => .packet .tocConfig [0x58]
  | .cfg12 => .packet .tocConfig [0x60]
  | .cfg13 => .packet .tocConfig [0x68]
  | .cfg14 => .packet .tocConfig [0x70]
  | .cfg15 => .packet .tocConfig [0x78]
  | .cfg16 => .packet .tocConfig [0x80]
  | .cfg17 => .packet .tocConfig [0x88]
  | .cfg18 => .packet .tocConfig [0x90]
  | .cfg19 => .packet .tocConfig [0x98]
  | .cfg20 => .packet .tocConfig [0xA0]
  | .cfg21 => .packet .tocConfig [0xA8]
  | .cfg22 => .packet .tocConfig [0xB0]
  | .cfg23 => .packet .tocConfig [0xB8]
  | .cfg24 => .packet .tocConfig [0xC0]
  | .cfg25 => .packet .tocConfig [0xC8]
  | .cfg26 => .packet .tocConfig [0xD0]
  | .cfg27 => .packet .tocConfig [0xD8]
  | .cfg28 => .packet .tocConfig [0xE0]
  | .cfg29 => .packet .tocConfig [0xE8]
  | .cfg30 => .packet .tocConfig [0xF0]
  | .cfg31 => .packet .tocConfig [0xF8]
  | .tocMono => .packet .tocStereo [0x00]
  | .tocStereo => .packet .tocStereo [0x04]
  | .c3Cbr m => .packet .c3h [c3Byte false false m]
  | .c3CbrPad m => .packet .c3h [c3Byte false true m]
  | .c3Vbr m => .packet .c3h [c3Byte true false m]
  | .c3VbrPad m => .packet .c3h [c3Byte true true m]
  | .len1 b0 => .packet .len [b0]
  | .len2 b0 b1 => .packet .len [b0, b1]
  | .padCont => .packet .pad [0xFF]
  | .padTerm t => .packet .pad [t]
  | .setCtrl d => .bus 0x00 32 d
  | .start d => .bus 0x00 32 d
  | .ackDone d => .bus 0x04 32 d
  | .setLen d => .bus 0x08 32 d
  | .writePkt i (.byte b) => .bus (Config.pktWinOff + i.toNat) 8 (b.setWidth 32)
  | .writePkt i (.word w) => .bus (Config.pktWinOff + i.toNat) 32 w

/-- Byte `k` of a table word: the second byte is bits 15:8 (spec/opcode_table.json's numbering). -/
def tableByte (w k : Nat) : Byte := BitVec.ofNat 8 (w / 256 ^ k)

/-- DESIGN CHOICE (log 17): the format a bare table word of one byte is read in, which the table's bits do not say. A
word that is the whole pattern of one row of another format is read in that format: 0x01 to 0x03 is TOC_CODE1 to
TOC_CODE3, 0x04 is TOC_STEREO, 0xFC to 0xFE is LEN2, 0xFF is PAD_CONT. Every other word is a TOC byte, read by its
CFG row. -/
def tableFormat (w : Nat) : Format :=
  if 1 ≤ w ∧ w ≤ 3 then .tocCode
  else if w = 4 then .tocStereo
  else if 252 ≤ w ∧ w ≤ 254 then .len
  else if w = 255 then .pad
  else .tocConfig

/-- DESIGN CHOICE (log 17): the offset a bare 32-bit command word is read at, which the table's bits do not say:
CTRL if bit 0 is set or the word is 0, STATUS if bit 1 is set, PKT_LEN if the word fits its LEN field, else the
packet window. -/
def tableOffset (w : Nat) : Nat :=
  if w % 2 = 1 ∨ w = 0 then 0x00
  else if w / 2 % 2 = 1 then 0x04
  else if w < 65536 then 0x08
  else Config.pktWinOff

/-- DESIGN CHOICE (log 17): a table word of `nbits` bits as an encoding: one byte is a packet field (with a LEN2
field's second byte read from above bit 7), two bytes are a LEN2 field or a PKT_LEN write, more are a host command. -/
def tableEncoding (nbits w : Nat) : Encoding :=
  if nbits ≤ 8 then .packet (tableFormat (w % 256)) [tableByte w 0, tableByte w 1]
  else if nbits ≤ 16 then
    if 252 ≤ w % 256 then .packet .len [tableByte w 0, tableByte w 1] else .bus 0x08 32 (BitVec.ofNat 32 w)
  else .bus (tableOffset (w % 2 ^ 32)) 32 (BitVec.ofNat 32 w)

/-- What the decoder reads from an instruction whose bits are `w`, numbered as the opcode table numbers them. -/
def decodeTableWord (nbits w : Nat) : Option Instr :=
  match decode Params.default.pktMax (tableEncoding nbits w) with
  | .ok i => some i
  | .error _ => none

end Sys2Proof
end

