-- ==== Sys2Proof/Machine/State.lean ====
section
/-! DEFINITION. Sys2Proof/Machine/State.lean: the whole state of one OPF instance as plain data (10_state.md R21), the
host's pending actions beside it, the reasons a step can stop, and the state right after reset (R41). -/

namespace Sys2Proof.Machine

/-- TOC_INFO.MODE (30_encoding.md R88): 0 SILK, 1 CELT, 2 Hybrid; 3 is never written (R28). -/
inductive Mode where
  | silk
  | celt
  | hybrid
  deriving DecidableEq, Repr

/-- TOC_INFO.BW (R88): 0 to 4; 5 to 7 are never written (R28). -/
inductive Bandwidth where
  | narrow
  | medium
  | wide
  | superWide
  | fullBand
  deriving DecidableEq, Repr

/-- TOC_INFO.DUR (R88): 2.5, 5, 10, 20, 40, 60 ms are 0 to 5; 6 and 7 are never written (R28). -/
inductive Duration where
  | ms2_5
  | ms5
  | ms10
  | ms20
  | ms40
  | ms60
  deriving DecidableEq, Repr

/-- One entry of the configuration ROM (R37, 40_toc_config.md R121). -/
structure Configuration where
  mode : Mode
  bw   : Bandwidth
  dur  : Duration
  deriving DecidableEq, Repr

/-- The eight errors a parse can end with (60_exceptions.md R250). -/
inductive ParseError where
  | noTOC
  | frameTooBig
  | nonOddLength
  | packetTooSmall
  | lengthOverflow
  | tooMuchAudio
  | nonMultipleRemainder
  | noAudio
  deriving DecidableEq, Repr

/-- A frame descriptor: the packet index of the frame's first byte and the frame's length (R36, R87). -/
structure Desc where
  off : BitVec 16
  len : BitVec 16
  deriving DecidableEq, Repr

/-- CTRL (R25). START is no stored bit. -/
structure Ctrl where
  strict : Bool
  irqEn  : Bool
  deriving DecidableEq, Repr

/-- STATUS (R26) without BUSY, which is `fsm ≠ idle` (R39). -/
structure Status where
  done    : Bool
  err     : Bool
  errCode : BitVec 4
  deriving DecidableEq, Repr

/-- TOC_INFO (R28). -/
structure TocInfo where
  config : BitVec 5
  stereo : Bool
  code   : BitVec 2
  mode   : Mode
  bw     : Bandwidth
  dur    : Duration
  valid  : Bool
  deriving DecidableEq, Repr

/-- C3_INFO (R29). -/
structure C3Info where
  m     : BitVec 6
  pad   : Bool
  vbr   : Bool
  valid : Bool
  deriving DecidableEq, Repr

/-- PAD_INFO (R31). -/
structure PadInfo where
  hdrLen : BitVec 16
  valid  : Bool
  deriving DecidableEq, Repr

/-- PAD_DATA (R32). -/
structure PadData where
  len : BitVec 16
  off : BitVec 16
  deriving DecidableEq, Repr

/-- The register block (R23). -/
structure Regs where
  ctrl      : Ctrl
  status    : Status
  pktLen    : BitVec 16
  tocInfo   : TocInfo
  c3Info    : C3Info
  numFrames : BitVec 16
  padInfo   : PadInfo
  padData   : PadData
  padTotal  : BitVec 17
  deriving DecidableEq, Repr

/-- The internal datapath registers (R38). -/
structure Datapath where
  /-- `LEN`: the packet length START latched. -/
  len       : BitVec 16
  /-- The strict flag START latched. -/
  strict    : Bool
  /-- `pos`: the read cursor, the block's program counter (R22). -/
  pos       : BitVec 16
  code      : BitVec 2
  dur       : Duration
  /-- `M`: the Code 3 frame count. -/
  m         : BitVec 6
  vbr       : Bool
  padf      : Bool
  padHdr    : BitVec 16
  padData   : BitVec 18
  regionEnd : BitVec 16
  /-- Index of the frame being produced: how many frames have been presented. -/
  fidx      : BitVec 6
  nf        : BitVec 16
  /-- `lens[0..61]`: the explicit lengths read so far, oldest first; an entry not yet read is the 0 START wrote
  (log 21). -/
  lens      : List (BitVec 11)
  lsum      : BitVec 18
  deriving DecidableEq, Repr

/-- The FSM states (R39, 43_validity_fsm.md R220). -/
inductive Fsm where
  | idle
  | sToc
  | sC0
  | sC1
  | sC2
  | sC3h
  | sC3p
  | sC3f
  | sFin
  deriving DecidableEq, Repr

/-- MODEL'S OWN (log 10): which of the three rows of the TOC byte S_TOC executes next. -/
inductive TocPhase where
  | config
  | stereo
  | code
  deriving DecidableEq, Repr

/-- What the host can do (20_memory.md R64, R65; 30_encoding.md R89, R92; 43_validity_fsm.md R230 to R232;
70_reset_and_hazards.md R280). Addresses are the host's, so register offset `o` is address `BASE + o` (R74; log 2);
widths are in bits. -/
inductive HostAction where
  /-- A bus write. -/
  | write (addr width : Nat) (data : Word)
  /-- A bus read. -/
  | read (addr width : Nat)
  /-- CLEAR_SINK (R232). -/
  | clearSink
  /-- The sink's ready signal rises or falls (R75, R231). -/
  | setReady (b : Bool)
  /-- `rst` is asserted or deasserted (R280). -/
  | setRst (b : Bool)
  /-- WAIT: poll STATUS until DONE = 1 (R92). -/
  | waitDone
  /-- WAIT_IRQ: wait until irq = 1, with no bus access (R92). -/
  | waitIrq
  deriving DecidableEq, Repr

/-- One pending host action and how many block steps the host lets pass before it takes effect (log 1). -/
structure HostEvent where
  delay : Nat
  act   : HostAction
  deriving DecidableEq, Repr

/-- One OPF instance, with its host's side of the interface. -/
structure State where
  /-- The parameters of this machine (00_scope.md R6); no step changes them. -/
  params    : Params
  /-- The register block (R23). -/
  regs      : Regs
  /-- PKT_BUF (R35): the written cells, by strictly rising index; a cell not listed is unwritten. -/
  pktBuf    : List Host.Cell
  /-- SINK (R36), oldest first. -/
  sink      : List Desc
  /-- The datapath registers (R38). -/
  dp        : Datapath
  /-- The FSM state (R39). -/
  fsm       : Fsm
  /-- What S_FIN holds: OK (`none`) or an error (R220). -/
  outcome   : Option ParseError
  /-- The descriptor output port: the word presented with valid, if any (20_memory.md R75). -/
  port      : Option Desc
  /-- The reset input (70_reset_and_hazards.md R280). -/
  rst       : Bool
  /-- MODEL'S OWN: the TOC byte S_TOC has read (log 10). -/
  toc       : Byte
  /-- MODEL'S OWN: the row of the TOC byte S_TOC executes next (log 10). -/
  tocPhase  : TocPhase
  /-- MODEL'S OWN: the ready signal of the host's sink (R75; log 12). -/
  sinkReady : Bool
  /-- MODEL'S OWN: the host actions not yet taken, in the order the host issues them (R69; log 1). -/
  host      : List HostEvent
  /-- MODEL'S OWN: what the host's last read returned (log 9). -/
  busData   : Word
  /-- MODEL'S OWN: how many free values have been drawn (log 5, log 6). -/
  draws     : Nat
  deriving DecidableEq, Repr

/-- Why the machine stops with a fault (log 13). -/
inductive Fault where
  /-- Raised by the block's packet read of a cell nothing has written (R62, R254). SAFE: the hardware would read some
  byte and go on. -/
  | unwrittenPacketByte (i : Nat)
  /-- Raised by a host access at an address the map of R74 does not have (log 15). SAFE: such an access is not OPF's. -/
  | outsideAddressMap (addr : Nat)
  deriving DecidableEq, Repr

/-- Why a step is refused (log 13). -/
inductive Refusal where
  /-- An instruction with no meaning yet, by its mnemonic. SAFE. -/
  | notModelled (mnemonic : String)
  /-- Raised by a register access that is not 32-bit on a 4-byte boundary (R64, R235.1). SAFE. -/
  | registerAccess (offset width : Nat)
  /-- Raised by a packet window access that is neither 8-bit nor 32-bit on a 4-byte boundary (R65, R235.2). SAFE. -/
  | windowAccess (offset width : Nat)
  /-- Raised by a packet buffer write while the FSM is not IDLE (R228, R235.3). SAFE. -/
  | pktWriteWhileBusy (i : Nat)
  /-- Raised by CLEAR_SINK while the FSM is not IDLE (R232, R235.4). SAFE. -/
  | clearSinkWhileBusy
  /-- Raised by a START accepted in IDLE with `PKT_LEN.LEN > PKT_MAX` (R222, R235.5). SAFE. -/
  | startLenTooLarge (len : Nat)
  /-- Raised by `exec` for a packet form in an FSM state that decodes no such form; no step does that (log 16). SAFE. -/
  | formNotExpected (i : Instr)
  deriving DecidableEq, Repr

/-- TOC_INFO = 0 (R28): every field's code 0. -/
def TocInfo.zero : TocInfo := ⟨0, false, 0, .silk, .narrow, .ms2_5, false⟩

/-- C3_INFO = 0 (R29). -/
def C3Info.zero : C3Info := ⟨0, false, false, false⟩

/-- PAD_INFO = 0 (R31). -/
def PadInfo.zero : PadInfo := ⟨0, false⟩

/-- PAD_DATA = 0 (R32). -/
def PadData.zero : PadData := ⟨0, 0⟩

/-- Every register at 0 (R41). -/
def Regs.zero : Regs :=
  ⟨⟨false, false⟩, ⟨false, false, 0⟩, 0, TocInfo.zero, C3Info.zero, 0, PadInfo.zero, PadData.zero, 0⟩

/-- Every datapath register at 0, as START leaves them before it latches (R38, R222). -/
def Datapath.zero : Datapath :=
  ⟨0, false, 0, 0, .ms2_5, 0, false, false, 0, 0, 0, 0, 0, [], 0⟩

/-- The machine right after reset (R41, R281), with the default parameters (R6; log 3), the datapath at 0 (log 7), an
empty SINK (log 8), and the model's own fields as log 9 names them. -/
def State.reset : State where
  params    := Params.default
  regs      := Regs.zero
  pktBuf    := []
  sink      := []
  dp        := Datapath.zero
  fsm       := .idle
  outcome   := none
  port      := none
  rst       := false
  toc       := 0
  tocPhase  := .config
  sinkReady := true
  host      := []
  busData   := 0
  draws     := 0

end Sys2Proof.Machine
end

