-- ==== Sys2Proof/Machine/Operands.lean ====
section
/-! DEFINITION. Sys2Proof/Machine/Operands.lean: the values the packet fields carry: the configuration ROM
(40_toc_config.md R121), the enumeration codes and durations (30_encoding.md R88), the length field (R84, 20_memory.md
R63) and the padding chain byte (R85). -/

namespace Sys2Proof.Machine

/-- MODE's code (R88). -/
def Mode.toBits : Mode → BitVec 2
  | .silk => 0
  | .celt => 1
  | .hybrid => 2

/-- BW's code (R88). -/
def Bandwidth.toBits : Bandwidth → BitVec 3
  | .narrow => 0
  | .medium => 1
  | .wide => 2
  | .superWide => 3
  | .fullBand => 4

/-- DUR's code (R88). -/
def Duration.toBits : Duration → BitVec 3
  | .ms2_5 => 0
  | .ms5 => 1
  | .ms10 => 2
  | .ms20 => 3
  | .ms40 => 4
  | .ms60 => 5

/-- `dur_half`: the frame duration in half-milliseconds (R88, R122). -/
def Duration.half : Duration → Nat
  | .ms2_5 => 5
  | .ms5 => 10
  | .ms10 => 20
  | .ms20 => 40
  | .ms40 => 80
  | .ms60 => 120

/-- The error codes of 60_exceptions.md R250. -/
def ParseError.code : ParseError → BitVec 4
  | .noTOC => 1
  | .frameTooBig => 2
  | .nonOddLength => 3
  | .packetTooSmall => 4
  | .lengthOverflow => 5
  | .tooMuchAudio => 6
  | .nonMultipleRemainder => 7
  | .noAudio => 8

/-- The SILK rows of R121, configurations 0 to 11. -/
def silkRows : List Configuration :=
  [⟨.silk, .narrow, .ms10⟩, ⟨.silk, .narrow, .ms20⟩, ⟨.silk, .narrow, .ms40⟩, ⟨.silk, .narrow, .ms60⟩,
   ⟨.silk, .medium, .ms10⟩, ⟨.silk, .medium, .ms20⟩, ⟨.silk, .medium, .ms40⟩, ⟨.silk, .medium, .ms60⟩,
   ⟨.silk, .wide, .ms10⟩, ⟨.silk, .wide, .ms20⟩, ⟨.silk, .wide, .ms40⟩, ⟨.silk, .wide, .ms60⟩]

/-- The Hybrid rows of R121, configurations 12 to 15. -/
def hybridRows : List Configuration :=
  [⟨.hybrid, .superWide, .ms10⟩, ⟨.hybrid, .superWide, .ms20⟩,
   ⟨.hybrid, .fullBand, .ms10⟩, ⟨.hybrid, .fullBand, .ms20⟩]

/-- The CELT rows of R121, configurations 16 to 31. -/
def celtRows : List Configuration :=
  [⟨.celt, .narrow, .ms2_5⟩, ⟨.celt, .narrow, .ms5⟩, ⟨.celt, .narrow, .ms10⟩, ⟨.celt, .narrow, .ms20⟩,
   ⟨.celt, .wide, .ms2_5⟩, ⟨.celt, .wide, .ms5⟩, ⟨.celt, .wide, .ms10⟩, ⟨.celt, .wide, .ms20⟩,
   ⟨.celt, .superWide, .ms2_5⟩, ⟨.celt, .superWide, .ms5⟩, ⟨.celt, .superWide, .ms10⟩, ⟨.celt, .superWide, .ms20⟩,
   ⟨.celt, .fullBand, .ms2_5⟩, ⟨.celt, .fullBand, .ms5⟩, ⟨.celt, .fullBand, .ms10⟩, ⟨.celt, .fullBand, .ms20⟩]

/-- The configuration ROM (R37, R121): 32 rows in index order. -/
def configRom : List Configuration := silkRows ++ hybridRows ++ celtRows

/-- CONFIG_LOOKUP (R121). Every 5-bit index has a row. -/
def configLookup (k : BitVec 5) : Configuration := configRom.getD k.toNat ⟨.silk, .narrow, .ms10⟩

/-- The value of a 2-byte length field: `byte0 + byte1 * 4` (R63, R84). -/
def len2Value (b0 b1 : Byte) : Nat := b0.toNat + b1.toNat * 4

/-- The value a length field row carries, and how many bytes it takes (R84). -/
def lenRowValue : Instr → Option (Nat × Nat)
  | .len1 b0 => some (b0.toNat, 1)
  | .len2 b0 b1 => some (len2Value b0 b1, 2)
  | _ => none

/-- What one chain byte adds to the padding data: 254 for 0xFF, its own value otherwise (R85, R142). -/
def padContribution (b : Byte) : Nat := if b.toNat = 255 then 254 else b.toNat

end Sys2Proof.Machine
end

