-- ==== Sys2Proof/Machine/Flags.lean ====
section
/-! DEFINITION. Sys2Proof/Machine/Flags.lean: the flags computed from the state (10_state.md R26, R34) and the 32-bit
words the registers read as (R25 to R33, R24). -/

namespace Sys2Proof.Machine

/-- STATUS.BUSY: 1 while a parse runs (R26, R39). -/
def State.busy (s : State) : Bool := s.fsm != .idle

/-- The interrupt output: `STATUS.DONE AND CTRL.IRQ_EN` (R34, R255). -/
def State.irq (s : State) : Bool := s.regs.status.done && s.regs.ctrl.irqEn

/-- A flag at bit `k` of a register word, every other bit 0. -/
def flagWord (b : Bool) (k : Nat) : Word := if b then 1#32 <<< k else 0

/-- CTRL as read: `IRQ_EN << 2 | STRICT << 1`; the START bit reads 0 (R25, R230). -/
def Ctrl.word (c : Ctrl) : Word := flagWord c.irqEn 2 ||| flagWord c.strict 1

/-- STATUS as read (R26). -/
def Status.word (st : Status) (busy : Bool) : Word :=
  (st.errCode.setWidth 32 <<< 4) ||| flagWord st.err 2 ||| flagWord st.done 1 ||| flagWord busy 0

/-- TOC_INFO as read (R28). -/
def TocInfo.word (t : TocInfo) : Word :=
  flagWord t.valid 31 ||| (t.dur.toBits.setWidth 32 <<< 13) ||| (t.bw.toBits.setWidth 32 <<< 10)
    ||| (t.mode.toBits.setWidth 32 <<< 8) ||| (t.code.setWidth 32 <<< 6) ||| flagWord t.stereo 5
    ||| t.config.setWidth 32

/-- C3_INFO as read (R29). -/
def C3Info.word (c : C3Info) : Word :=
  flagWord c.valid 31 ||| flagWord c.vbr 7 ||| flagWord c.pad 6 ||| c.m.setWidth 32

/-- PAD_INFO as read (R31). -/
def PadInfo.word (p : PadInfo) : Word := flagWord p.valid 31 ||| p.hdrLen.setWidth 32

/-- PAD_DATA as read: OFF in bits 31:16, LEN in bits 15:0 (R32). -/
def PadData.word (p : PadData) : Word := (p.off.setWidth 32 <<< 16) ||| p.len.setWidth 32

/-- The descriptor word: LEN in bits 31:16, OFF in bits 15:0 (30_encoding.md R87). -/
def Desc.word (d : Desc) : Word := (d.len.setWidth 32 <<< 16) ||| d.off.setWidth 32

/-- The exact value of the register at a 4-byte aligned offset of the register space; a reserved offset reads 0
(R23, R24). -/
def State.registerWord (s : State) (offset : Nat) : Word :=
  match offset with
  | 0x00 => s.regs.ctrl.word
  | 0x04 => s.regs.status.word s.busy
  | 0x08 => s.regs.pktLen.setWidth 32
  | 0x0C => s.regs.tocInfo.word
  | 0x10 => s.regs.c3Info.word
  | 0x14 => s.regs.numFrames.setWidth 32
  | 0x18 => s.regs.padInfo.word
  | 0x1C => s.regs.padData.word
  | 0x20 => s.regs.padTotal.setWidth 32
  | _ => 0

/-- The result registers: TOC_INFO, C3_INFO, NUM_FRAMES, PAD_INFO, PAD_DATA, PAD_TOTAL (R230). -/
def isResultOffset (offset : Nat) : Bool := decide (0x0C ≤ offset) && decide (offset ≤ 0x20)

end Sys2Proof.Machine
end

