-- ==== Sys2Proof/Machine/Ops.lean ====
section
/-! DEFINITION. Sys2Proof/Machine/Ops.lean: the operations every meaning is built from: the packet buffer, the
descriptor port, raising an error and finishing a parse (the exception entry of OPF), beginning a parse, reset, and
retiring a host action. -/

namespace Sys2Proof.Machine

/-! ### The packet buffer (10_state.md R35, 20_memory.md R62, R65) -/

/-- The written cells of the packet buffer. -/
abbrev Memory := List Host.Cell

/-- What a cell holds: `none` if nothing has written it (R35). -/
def Memory.read (mem : Memory) (i : Nat) : Option Byte :=
  match mem with
  | [] => none
  | (a, b) :: rest => if a = i then some b else Memory.read rest i

/-- Write one cell, keeping the list sorted by index with no repeats. -/
def Memory.write (mem : Memory) (i : Nat) (v : Byte) : Memory :=
  match mem with
  | [] => [(i, v)]
  | (a, b) :: rest =>
    if i < a then (i, v) :: (a, b) :: rest
    else if i = a then (i, v) :: rest
    else (a, b) :: Memory.write rest i v

/-- Every index of the list lies above `i`. -/
def Memory.above (i : Nat) (mem : Memory) : Bool := mem.all fun c => decide (i < c.1)

/-- The canonical form: indices strictly rising. A listed cell is always a written one, so no entry equals what an
unlisted cell reads as. -/
def Memory.wf (mem : Memory) : Bool :=
  match mem with
  | [] => true
  | (a, _) :: rest => Memory.above a rest && Memory.wf rest

/-- Every written cell is a cell of the buffer: its index is below `PKT_MAX` (R35). -/
def Memory.inside (pktMax : Nat) (mem : Memory) : Bool := mem.all fun c => decide (c.1 < pktMax)

/-- Write one cell if it is inside the buffer; a write past it is ignored (R65). -/
def Memory.writeInside (pktMax : Nat) (mem : Memory) (i : Nat) (v : Byte) : Memory :=
  if i < pktMax then mem.write i v else mem

/-- Byte `k` of a 32-bit window word: cell `i + k` is bits `8k+7 : 8k` (R65). -/
def wordByte (w : Word) (k : Nat) : Byte := w.extractLsb' (8 * k) 8

/-- A window write of one byte, or of four in little-endian order (R65, R228). -/
def Memory.writePkt (pktMax : Nat) (mem : Memory) (i : Nat) : PktData → Memory
  | .byte b => mem.writeInside pktMax i b
  | .word w =>
    (((mem.writeInside pktMax i (wordByte w 0)).writeInside pktMax (i + 1) (wordByte w 1)).writeInside pktMax (i + 2)
      (wordByte w 2)).writeInside pktMax (i + 3) (wordByte w 3)

/-! ### The host's queue -/

/-- The host action at the head of the queue has taken effect. -/
def State.retire (s : State) : State := { s with host := s.host.tail }

/-! ### Errors: a parse's exceptions (00_scope.md R9, 43_validity_fsm.md R229, 60_exceptions.md R251) -/

/-- `raise`: the parse ends with an error, which S_FIN holds (R9, R221). Nothing is rolled back (R251). -/
def raise (e : ParseError) (s : State) : State := { s with fsm := .sFin, outcome := some e }

/-- COMPLETE: the parse ends with OK (42_code_splitter.md R173). -/
def complete (s : State) : State := { s with fsm := .sFin, outcome := none }

/-- The STATUS a parse's outcome writes (R229). -/
def Status.ofOutcome : Option ParseError → Status
  | none => ⟨true, false, 0⟩
  | some e => ⟨true, true, e.code⟩

/-- `finish`: one atomic step in S_FIN; BUSY falls and DONE rises (R229). -/
def finish (s : State) : State :=
  { s with fsm := .idle, regs := { s.regs with status := Status.ofOutcome s.outcome } }

/-! ### The descriptor port (20_memory.md R75, 42_code_splitter.md R161) -/

/-- `Emit(off, n)` up to the sink's acceptance: the strict check, then the descriptor is presented on the port. The
caller's cursor becomes `pos'` and the next frame is up (log 11). -/
def emit (off n pos' : Nat) (s : State) : State :=
  if s.dp.strict = true ∧ Config.maxFrame < n then raise .frameTooBig s
  else { s with
    port := some ⟨word16 off, word16 n⟩
    dp := { s.dp with pos := word16 pos', fidx := s.dp.fidx + 1 } }

/-- The sink accepts the presented descriptor if it is ready: it enters SINK, and `nf` and NUM_FRAMES count it (R161).
A sink that is not ready leaves the block where it is (R231). -/
def acceptDesc (d : Desc) (s : State) : State :=
  if s.sinkReady then
    { s with
      port := none
      sink := s.sink ++ [d]
      dp := { s.dp with nf := s.dp.nf + 1 }
      regs := { s.regs with numFrames := s.dp.nf + 1 } }
  else s

/-! ### Starting and resetting -/

/-- What an accepted START leaves (R222): the datapath zeroed, LEN and STRICT latched, every result register and the
outcome flags cleared, and the FSM in S_TOC. -/
def beginParse (s : State) : State :=
  { s with
    dp := { Datapath.zero with len := s.regs.pktLen, strict := s.regs.ctrl.strict }
    regs := { s.regs with
      status := ⟨false, false, 0⟩
      tocInfo := TocInfo.zero
      c3Info := C3Info.zero
      numFrames := 0
      padInfo := PadInfo.zero
      padData := PadData.zero
      padTotal := 0 }
    fsm := .sToc
    tocPhase := .config
    toc := 0
    outcome := none
    port := none }

/-- The effect of reset (R41, R281, R282): registers at their reset values, IDLE, every packet cell unwritten; SINK
and what belongs to the host stay. The datapath is unspecified (R38) and left at 0 (log 7). -/
def applyReset (s : State) : State :=
  { s with
    regs := Regs.zero
    pktBuf := []
    dp := Datapath.zero
    fsm := .idle
    outcome := none
    port := none
    toc := 0
    tocPhase := .config }

end Sys2Proof.Machine
end

