-- ==== Sys2Proof/Machine/HostCmd.lean ====
section
/-! DEFINITION. Sys2Proof/Machine/HostCmd.lean: the host commands (43_validity_fsm.md R222, R223, R225 to R228). Each
retires the host action it is, as a processor's instruction moves its program counter on. -/

namespace Sys2Proof.Machine

/-- While `rst` is asserted the block ignores host accesses (70_reset_and_hazards.md R280). -/
def hostCommand (s : State) (f : State → Host.Outcome State Fault Refusal) : Host.Outcome State Fault Refusal :=
  if s.rst then .next s.retire else f s.retire

/-- The stored fields of a CTRL write (R225): STRICT from bit 1, IRQ_EN from bit 2. -/
def writeCtrl (d : Word) (s : State) : State :=
  { s with regs := { s.regs with ctrl := ⟨flagBit d 1, flagBit d 2⟩ } }

/-- START (R222, R223, R235.5), after the CTRL fields are updated. -/
def startWork (s : State) : Host.Outcome State Fault Refusal :=
  if s.fsm ≠ .idle then .next s
  else if s.params.pktMax < s.regs.pktLen.toNat then .refused (.startLenTooLarge s.regs.pktLen.toNat)
  else .next (beginParse s)

/-- SET_CTRL: a CTRL write with bit 0 = 0 (R225). -/
def execSetCtrl (d : Word) (s : State) : Host.Outcome State Fault Refusal :=
  hostCommand s fun s => .next (writeCtrl d s)

/-- START: a CTRL write with bit 0 = 1; the CTRL fields first (R225), then START (R222). -/
def execStart (d : Word) (s : State) : Host.Outcome State Fault Refusal :=
  hostCommand s fun s => startWork (writeCtrl d s)

/-- ACK_DONE: a STATUS write with bit 1 = 1 clears DONE and nothing else (R226). -/
def execAckDone (d : Word) (s : State) : Host.Outcome State Fault Refusal :=
  hostCommand s fun s =>
    .next (if flagBit d 1 then { s with regs := { s.regs with status := { s.regs.status with done := false } } } else s)

/-- SET_LEN: PKT_LEN.LEN takes bits 15:0 (R227). -/
def execSetLen (d : Word) (s : State) : Host.Outcome State Fault Refusal :=
  hostCommand s fun s => .next { s with regs := { s.regs with pktLen := d.extractLsb' 0 16 } }

/-- WRITE_PKT: the packet buffer cells take the bytes, in IDLE only (R228, R235.3). -/
def execWritePkt (i : BitVec 16) (v : PktData) (s : State) : Host.Outcome State Fault Refusal :=
  hostCommand s fun s =>
    if s.fsm = .idle then .next { s with pktBuf := Memory.writePkt s.params.pktMax s.pktBuf i.toNat v }
    else .refused (.pktWriteWhileBusy i.toNat)

end Sys2Proof.Machine
end

