-- ==== Sys2Proof/Machine/Toc.lean ====
section
/-! DEFINITION. Sys2Proof/Machine/Toc.lean: the rows of the TOC byte: the 32 configurations and the stereo flag
(40_toc_config.md R120, R121), and the four Codes with the work of CODE0, CODE1 and CODE2's second frame
(42_code_splitter.md R162, R163, R164). -/

namespace Sys2Proof.Machine

/-- The block can take up work: it presents no descriptor and is not held in reset (R75, R280). -/
def State.canWork (s : State) : Bool := s.port.isNone && !s.rst

/-- The block is in S_TOC and the row of phase `ph` is next (log 10). -/
def State.atToc (s : State) (ph : TocPhase) : Bool :=
  s.canWork && decide (s.fsm = .sToc) && decide (s.tocPhase = ph)

/-- TOC_DECODE's configuration part (R120): CONFIG, MODE, BW, DUR and `dp.dur` from the ROM row. -/
def writeConfig (k : BitVec 5) (s : State) : Host.Outcome State Fault Refusal :=
  if s.atToc .config then
    let c := configLookup k
    .next { s with
      regs := { s.regs with tocInfo := { s.regs.tocInfo with config := k, mode := c.mode, bw := c.bw, dur := c.dur } }
      dp := { s.dp with dur := c.dur }
      tocPhase := .stereo }
  else .refused (.formNotExpected (tocConfigRow k))

/-- TOC_DECODE's stereo part (R120). -/
def writeStereo (b : Bool) (s : State) : Host.Outcome State Fault Refusal :=
  if s.atToc .stereo then
    .next { s with
      regs := { s.regs with tocInfo := { s.regs.tocInfo with stereo := b } }
      tocPhase := .code }
  else .refused (.formNotExpected (tocStereoRow b))

/-- TOC_DECODE's last part (R120) and the dispatch on the Code (R221): CODE, TOC_VALID, `dp.code`, `pos = 1`, and the
FSM state of the Code. -/
def dispatchCode (c : BitVec 2) (next : Fsm) (s : State) : State :=
  { s with
    regs := { s.regs with tocInfo := { s.regs.tocInfo with code := c, valid := true } }
    dp := { s.dp with code := c, pos := 1 }
    fsm := next }

/-- CODE0 (R162): one frame, the rest of the packet; then COMPLETE. -/
def code0Work (s : State) : State :=
  if s.dp.fidx = 0 then emit 1 (s.dp.len.toNat - 1) s.dp.pos.toNat s else complete s

/-- CODE1 (R163, 90_conflicts.md C1): NonOddLength if the packet length is even; else two equal frames; then
COMPLETE. -/
def code1Work (s : State) : State :=
  let h := (s.dp.len.toNat - 1) / 2
  if s.dp.fidx = 0 then
    if s.dp.len.toNat % 2 = 0 then raise .nonOddLength s else emit 1 h s.dp.pos.toNat s
  else if s.dp.fidx = 1 then emit (1 + h) h s.dp.pos.toNat s
  else complete s

/-- CODE2 after its length field (R164): frame 1 is everything after frame 0; then COMPLETE. Frame 0 is the length
field's work (`lenCode2`). -/
def code2Work (s : State) : State :=
  if s.dp.fidx = 1 then emit s.dp.pos.toNat (s.dp.len.toNat - s.dp.pos.toNat) s.dp.pos.toNat s else complete s

/-- TOC_CODE0: in S_TOC the dispatch to S_C0, in S_C0 CODE0's work (R162, R221). -/
def execTocCode0 (s : State) : Host.Outcome State Fault Refusal :=
  if s.atToc .code then .next (dispatchCode 0 .sC0 s)
  else if s.canWork ∧ s.fsm = .sC0 then .next (code0Work s)
  else .refused (.formNotExpected .tocCode0)

/-- TOC_CODE1: in S_TOC the dispatch to S_C1, in S_C1 CODE1's work (R163, R221). -/
def execTocCode1 (s : State) : Host.Outcome State Fault Refusal :=
  if s.atToc .code then .next (dispatchCode 1 .sC1 s)
  else if s.canWork ∧ s.fsm = .sC1 then .next (code1Work s)
  else .refused (.formNotExpected .tocCode1)

/-- TOC_CODE2: in S_TOC the dispatch to S_C2, in S_C2 CODE2's work after the length field (R164, R221). -/
def execTocCode2 (s : State) : Host.Outcome State Fault Refusal :=
  if s.atToc .code then .next (dispatchCode 2 .sC2 s)
  else if s.canWork ∧ s.fsm = .sC2 ∧ s.dp.fidx ≠ 0 then .next (code2Work s)
  else .refused (.formNotExpected .tocCode2)

/-- TOC_CODE3: the dispatch to S_C3H (R165, R221). What follows is the work of the Code 3 header row. -/
def execTocCode3 (s : State) : Host.Outcome State Fault Refusal :=
  if s.atToc .code then .next (dispatchCode 3 .sC3h s)
  else .refused (.formNotExpected .tocCode3)

/-- TOC_MONO (R120). -/
def execTocMono (s : State) : Host.Outcome State Fault Refusal := writeStereo false s

/-- TOC_STEREO (R120). -/
def execTocStereo (s : State) : Host.Outcome State Fault Refusal := writeStereo true s

/-- CFG_00. -/
def execCfg00 (s : State) : Host.Outcome State Fault Refusal := writeConfig 0 s

/-- CFG_01. -/
def execCfg01 (s : State) : Host.Outcome State Fault Refusal := writeConfig 1 s

/-- CFG_02. -/
def execCfg02 (s : State) : Host.Outcome State Fault Refusal := writeConfig 2 s

/-- CFG_03. -/
def execCfg03 (s : State) : Host.Outcome State Fault Refusal := writeConfig 3 s

/-- CFG_04. -/
def execCfg04 (s : State) : Host.Outcome State Fault Refusal := writeConfig 4 s

/-- CFG_05. -/
def execCfg05 (s : State) : Host.Outcome State Fault Refusal := writeConfig 5 s

/-- CFG_06. -/
def execCfg06 (s : State) : Host.Outcome State Fault Refusal := writeConfig 6 s

/-- CFG_07. -/
def execCfg07 (s : State) : Host.Outcome State Fault Refusal := writeConfig 7 s

/-- CFG_08. -/
def execCfg08 (s : State) : Host.Outcome State Fault Refusal := writeConfig 8 s

/-- CFG_09. -/
def execCfg09 (s : State) : Host.Outcome State Fault Refusal := writeConfig 9 s

/-- CFG_10. -/
def execCfg10 (s : State) : Host.Outcome State Fault Refusal := writeConfig 10 s

/-- CFG_11. -/
def execCfg11 (s : State) : Host.Outcome State Fault Refusal := writeConfig 11 s

/-- CFG_12. -/
def execCfg12 (s : State) : Host.Outcome State Fault Refusal := writeConfig 12 s

/-- CFG_13. -/
def execCfg13 (s : State) : Host.Outcome State Fault Refusal := writeConfig 13 s

/-- CFG_14. -/
def execCfg14 (s : State) : Host.Outcome State Fault Refusal := writeConfig 14 s

/-- CFG_15. -/
def execCfg15 (s : State) : Host.Outcome State Fault Refusal := writeConfig 15 s

/-- CFG_16. -/
def execCfg16 (s : State) : Host.Outcome State Fault Refusal := writeConfig 16 s

/-- CFG_17. -/
def execCfg17 (s : State) : Host.Outcome State Fault Refusal := writeConfig 17 s

/-- CFG_18. -/
def execCfg18 (s : State) : Host.Outcome State Fault Refusal := writeConfig 18 s

/-- CFG_19. -/
def execCfg19 (s : State) : Host.Outcome State Fault Refusal := writeConfig 19 s

/-- CFG_20. -/
def execCfg20 (s : State) : Host.Outcome State Fault Refusal := writeConfig 20 s

/-- CFG_21. -/
def execCfg21 (s : State) : Host.Outcome State Fault Refusal := writeConfig 21 s

/-- CFG_22. -/
def execCfg22 (s : State) : Host.Outcome State Fault Refusal := writeConfig 22 s

/-- CFG_23. -/
def execCfg23 (s : State) : Host.Outcome State Fault Refusal := writeConfig 23 s

/-- CFG_24. -/
def execCfg24 (s : State) : Host.Outcome State Fault Refusal := writeConfig 24 s

/-- CFG_25. -/
def execCfg25 (s : State) : Host.Outcome State Fault Refusal := writeConfig 25 s

/-- CFG_26. -/
def execCfg26 (s : State) : Host.Outcome State Fault Refusal := writeConfig 26 s

/-- CFG_27. -/
def execCfg27 (s : State) : Host.Outcome State Fault Refusal := writeConfig 27 s

/-- CFG_28. -/
def execCfg28 (s : State) : Host.Outcome State Fault Refusal := writeConfig 28 s

/-- CFG_29. -/
def execCfg29 (s : State) : Host.Outcome State Fault Refusal := writeConfig 29 s

/-- CFG_30. -/
def execCfg30 (s : State) : Host.Outcome State Fault Refusal := writeConfig 30 s

/-- CFG_31. -/
def execCfg31 (s : State) : Host.Outcome State Fault Refusal := writeConfig 31 s

end Sys2Proof.Machine
end

