-- ==== Sys2Proof/Machine/Code3.lean ====
section
/-! DEFINITION. Sys2Proof/Machine/Code3.lean: the rows of the Code 3 header byte: CODE3_HDR, CODE3_STRICT,
CODE3_PAD_REGION without padding, and the frames (42_code_splitter.md R165 to R171). -/

namespace Sys2Proof.Machine

/-- The block waits for a length field: CODE2's first frame (R164), or a Code 3 VBR frame that is not the last (R170),
or a length of the grouped layout not yet read (R171). -/
def State.expectsLen (s : State) : Bool :=
  match s.fsm with
  | .sC2 => decide (s.dp.fidx = 0)
  | .sC3f =>
    s.dp.vbr && match s.params.layout with
      | .interleaved => decide (s.dp.fidx.toNat + 1 < s.dp.m.toNat)
      | .grouped => decide (s.dp.lens.length + 1 < s.dp.m.toNat)
  | _ => false

/-- The running Code 3 packet has the header `v`, `p`, `m`. -/
def State.c3Is (s : State) (v p : Bool) (m : BitVec 6) : Bool :=
  decide (s.dp.vbr = v) && decide (s.dp.padf = p) && decide (s.dp.m = m)

/-- CODE3_HDR and CODE3_STRICT (R165, R166), then the entry of CODE3_PAD_REGION (R167): C3_INFO, the header's fields and
`pos = 2`; NoAudio first, then TooMuchAudio, both strict only. -/
def readHeader (v p : Bool) (m : BitVec 6) (s : State) : State :=
  let s1 : State := { s with
    regs := { s.regs with c3Info := ⟨m, p, v, true⟩ }
    dp := { s.dp with vbr := v, padf := p, m := m, pos := 2 } }
  if s.dp.strict = true ∧ m = 0 then raise .noAudio s1
  else if s.dp.strict = true ∧ Config.maxDurHalf < s.dp.dur.half * m.toNat then raise .tooMuchAudio s1
  else { s1 with fsm := .sC3p, dp := { s1.dp with padHdr := 0, padData := 0 } }

/-- The end of CODE3_PAD_REGION (R167): frames lie below `region_end = LEN - pad_data`. -/
def fixRegion (s : State) : State :=
  { s with
    dp := { s.dp with regionEnd := word16 (s.dp.len.toNat - s.dp.padData.toNat) }
    fsm := .sC3f }

/-- `R`: the bytes between the padding-length chain and `region_end` (R167, R169; log 24). -/
def cbrRemainder (s : State) : Nat := s.dp.regionEnd.toNat - (2 + s.dp.padHdr.toNat)

/-- CODE3_CBR, one frame (R169): NonMultipleRemainder, else the next of M frames of R / M bytes; then COMPLETE. -/
def cbrFrame (s : State) : State :=
  if s.dp.fidx = s.dp.m then complete s
  else if cbrRemainder s % s.dp.m.toNat ≠ 0 then raise .nonMultipleRemainder s
  else
    let f := cbrRemainder s / s.dp.m.toNat
    emit s.dp.pos.toNat f (s.dp.pos.toNat + f) s

/-- The last frame of a VBR packet: what is left of the region (R170, R171); then COMPLETE. The cursor stays (log 25). -/
def lastFrame (s : State) : State :=
  if s.dp.fidx.toNat + 1 = s.dp.m.toNat then
    emit s.dp.pos.toNat (s.dp.regionEnd.toNat - s.dp.pos.toNat) s.dp.pos.toNat s
  else complete s

/-- CODE3_VBR_GROUPED once every length is read (R171): PacketTooSmall if the lengths sum past the region, else the
next frame. -/
def groupedFrame (s : State) : State :=
  if s.dp.fidx = 0 ∧ s.dp.regionEnd.toNat < s.dp.pos.toNat + s.dp.lsum.toNat then raise .packetTooSmall s
  else if s.dp.fidx.toNat + 1 < s.dp.m.toNat then
    let n := (s.dp.lens.getD s.dp.fidx.toNat 0).toNat
    emit s.dp.pos.toNat n (s.dp.pos.toNat + n) s
  else lastFrame s

/-- The Code 3 frames, where no length field is due (R168 to R171). -/
def c3Frame (s : State) : State :=
  if s.dp.m = 0 then complete s
  else if s.dp.vbr = false then cbrFrame s
  else match s.params.layout with
    | .interleaved => lastFrame s
    | .grouped => groupedFrame s

/-- A Code 3 header row's next block step: the header itself in S_C3H, the region of a packet without padding in S_C3P,
the frames in S_C3F (R220). -/
def c3Form (v p : Bool) (m : BitVec 6) (s : State) : Host.Outcome State Fault Refusal :=
  if s.canWork ∧ s.fsm = .sC3h then .next (readHeader v p m s)
  else if s.canWork ∧ s.fsm = .sC3p ∧ s.c3Is v p m ∧ p = false then .next (fixRegion s)
  else if s.canWork ∧ s.fsm = .sC3f ∧ s.c3Is v p m ∧ s.expectsLen = false then .next (c3Frame s)
  else .refused (.formNotExpected (c3Row v p m))

/-- C3_CBR (R165 to R169). -/
def execC3Cbr (m : BitVec 6) (s : State) : Host.Outcome State Fault Refusal := c3Form false false m s

/-- C3_CBR_PAD (R165 to R169; its chain is PAD_CONT's and PAD_TERM's). -/
def execC3CbrPad (m : BitVec 6) (s : State) : Host.Outcome State Fault Refusal := c3Form false true m s

/-- C3_VBR (R165 to R168, R170, R171; its length fields are LEN1's and LEN2's). -/
def execC3Vbr (m : BitVec 6) (s : State) : Host.Outcome State Fault Refusal := c3Form true false m s

/-- C3_VBR_PAD (R165 to R168, R170, R171). -/
def execC3VbrPad (m : BitVec 6) (s : State) : Host.Outcome State Fault Refusal := c3Form true true m s

end Sys2Proof.Machine
end

