-- ==== Sys2Proof/Machine/Lengths.lean ====
section
/-! DEFINITION. Sys2Proof/Machine/Lengths.lean: the rows of the frame-length field and of the padding-length chain
(41_length_decoder.md R140 to R143), each with the work of the rule that called for it (R164, R167, R170, R171). -/

namespace Sys2Proof.Machine

/-- CODE2 with its decoded length field of value `v` and `n` bytes (R164): LengthOverflow if frame 0 does not fit,
else frame 0. -/
def lenCode2 (v n : Nat) (s : State) : State :=
  let pos := 1 + n
  let s1 : State := { s with dp := { s.dp with pos := word16 pos } }
  if s.dp.len.toNat - pos < v then raise .lengthOverflow s1 else emit pos v (pos + v) s1

/-- CODE3_VBR_INTERLEAVED with the length field of frame i (R170): PacketTooSmall if the frame runs past `region_end`,
else the frame. -/
def lenInterleaved (v n : Nat) (s : State) : State :=
  let pos := s.dp.pos.toNat + n
  let s1 : State := { s with dp := { s.dp with pos := word16 pos } }
  if s.dp.regionEnd.toNat < pos + v then raise .packetTooSmall s1 else emit pos v (pos + v) s1

/-- CODE3_VBR_GROUPED with the length field of frame i (R171): the length is kept and summed. -/
def lenGrouped (v n : Nat) (s : State) : State :=
  { s with dp := { s.dp with
      pos := word16 (s.dp.pos.toNat + n)
      lens := s.dp.lens ++ [BitVec.ofNat 11 v]
      lsum := word18 (s.dp.lsum.toNat + v) } }

/-- A length field of value `v` in `n` bytes, in the state that waits for one. -/
def lenForm (row : Instr) (v n : Nat) (s : State) : Host.Outcome State Fault Refusal :=
  if s.canWork ∧ s.expectsLen then
    if s.fsm = .sC2 then .next (lenCode2 v n s)
    else match s.params.layout with
      | .interleaved => .next (lenInterleaved v n s)
      | .grouped => .next (lenGrouped v n s)
  else .refused (.formNotExpected row)

/-- LEN1 (R140): the value is `b0`, in one byte. -/
def execLen1 (b0 : Byte) (s : State) : Host.Outcome State Fault Refusal := lenForm (.len1 b0) b0.toNat 1 s

/-- LEN2 (R140): the value is `b0 + b1 * 4`, in two bytes. -/
def execLen2 (b0 b1 : Byte) (s : State) : Host.Outcome State Fault Refusal :=
  lenForm (.len2 b0 b1) (len2Value b0 b1) 2 s

/-- PADDING_RESULT (R143). -/
def paddingResult (s : State) : State :=
  { s with regs := { s.regs with
      padInfo := ⟨s.dp.padHdr, true⟩
      padData := ⟨word16 s.dp.padData.toNat, word16 (s.dp.len.toNat - s.dp.padData.toNat)⟩
      padTotal := BitVec.ofNat 17 (s.dp.padHdr.toNat + s.dp.padData.toNat) } }

/-- The chain byte `b` is read and counted (R142). -/
def countPadByte (b : Byte) (s : State) : State :=
  { s with dp := { s.dp with
      pos := word16 (s.dp.pos.toNat + 1)
      padHdr := word16 (s.dp.padHdr.toNat + 1)
      padData := word18 (s.dp.padData.toNat + padContribution b) } }

/-- PAD_CHAIN, one byte (R142): count it, LengthOverflow if the running total exceeds `LEN - 2`; the last byte ends
with PADDING_RESULT (R143) and the region (R167). -/
def padByte (b : Byte) (last : Bool) (s : State) : State :=
  let s1 := countPadByte b s
  if s1.dp.len.toNat - 2 < s1.dp.padHdr.toNat + s1.dp.padData.toNat then raise .lengthOverflow s1
  else if last then fixRegion (paddingResult s1)
  else s1

/-- One padding-length chain byte, in the state that waits for one (R142). -/
def padForm (row : Instr) (b : Byte) (last : Bool) (s : State) : Host.Outcome State Fault Refusal :=
  if s.canWork ∧ s.fsm = .sC3p ∧ s.dp.padf then .next (padByte b last s)
  else .refused (.formNotExpected row)

/-- PAD_CONT (R142): 0xFF contributes 254 and the chain goes on. -/
def execPadCont (s : State) : Host.Outcome State Fault Refusal := padForm .padCont 0xFF false s

/-- PAD_TERM (R142): the byte contributes its value and ends the chain. -/
def execPadTerm (t : Byte) (s : State) : Host.Outcome State Fault Refusal := padForm (.padTerm t) t true s

end Sys2Proof.Machine
end

