-- ==== Sys2Proof/Machine/Dispatch.lean ====
section
/-! DEFINITION. Sys2Proof/Machine/Dispatch.lean: one arm per row of the opcode table. -/

namespace Sys2Proof.Machine

def exec (i : Instr) (s : State) : Host.Outcome State Fault Refusal :=
  match i with
  | .tocCode0 => Sys2Proof.Machine.execTocCode0 s
  | .tocCode1 => Sys2Proof.Machine.execTocCode1 s
  | .tocCode2 => Sys2Proof.Machine.execTocCode2 s
  | .tocCode3 => Sys2Proof.Machine.execTocCode3 s
  | .cfg00 => Sys2Proof.Machine.execCfg00 s
  | .cfg01 => Sys2Proof.Machine.execCfg01 s
  | .cfg02 => Sys2Proof.Machine.execCfg02 s
  | .cfg03 => Sys2Proof.Machine.execCfg03 s
  | .cfg04 => Sys2Proof.Machine.execCfg04 s
  | .cfg05 => Sys2Proof.Machine.execCfg05 s
  | .cfg06 => Sys2Proof.Machine.execCfg06 s
  | .cfg07 => Sys2Proof.Machine.execCfg07 s
  | .cfg08 => Sys2Proof.Machine.execCfg08 s
  | .cfg09 => Sys2Proof.Machine.execCfg09 s
  | .cfg10 => Sys2Proof.Machine.execCfg10 s
  | .cfg11 => Sys2Proof.Machine.execCfg11 s
  | .cfg12 => Sys2Proof.Machine.execCfg12 s
  | .cfg13 => Sys2Proof.Machine.execCfg13 s
  | .cfg14 => Sys2Proof.Machine.execCfg14 s
  | .cfg15 => Sys2Proof.Machine.execCfg15 s
  | .cfg16 => Sys2Proof.Machine.execCfg16 s
  | .cfg17 => Sys2Proof.Machine.execCfg17 s
  | .cfg18 => Sys2Proof.Machine.execCfg18 s
  | .cfg19 => Sys2Proof.Machine.execCfg19 s
  | .cfg20 => Sys2Proof.Machine.execCfg20 s
  | .cfg21 => Sys2Proof.Machine.execCfg21 s
  | .cfg22 => Sys2Proof.Machine.execCfg22 s
  | .cfg23 => Sys2Proof.Machine.execCfg23 s
  | .cfg24 => Sys2Proof.Machine.execCfg24 s
  | .cfg25 => Sys2Proof.Machine.execCfg25 s
  | .cfg26 => Sys2Proof.Machine.execCfg26 s
  | .cfg27 => Sys2Proof.Machine.execCfg27 s
  | .cfg28 => Sys2Proof.Machine.execCfg28 s
  | .cfg29 => Sys2Proof.Machine.execCfg29 s
  | .cfg30 => Sys2Proof.Machine.execCfg30 s
  | .cfg31 => Sys2Proof.Machine.execCfg31 s
  | .tocMono => Sys2Proof.Machine.execTocMono s
  | .tocStereo => Sys2Proof.Machine.execTocStereo s
  | .c3Cbr m => Sys2Proof.Machine.execC3Cbr m s
  | .c3CbrPad m => Sys2Proof.Machine.execC3CbrPad m s
  | .c3Vbr m => Sys2Proof.Machine.execC3Vbr m s
  | .c3VbrPad m => Sys2Proof.Machine.execC3VbrPad m s
  | .len1 b0 => Sys2Proof.Machine.execLen1 b0 s
  | .len2 b0 b1 => Sys2Proof.Machine.execLen2 b0 b1 s
  | .padCont => Sys2Proof.Machine.execPadCont s
  | .padTerm t => Sys2Proof.Machine.execPadTerm t s
  | .setCtrl d => Sys2Proof.Machine.execSetCtrl d s
  | .start d => Sys2Proof.Machine.execStart d s
  | .ackDone d => Sys2Proof.Machine.execAckDone d s
  | .setLen d => Sys2Proof.Machine.execSetLen d s
  | .writePkt cell v => Sys2Proof.Machine.execWritePkt cell v s

end Sys2Proof.Machine
end

