-- ==== Sys2Proof/Machine/Bus.lean ====
section
/-! DEFINITION. Sys2Proof/Machine/Bus.lean: what the host does that is no row of the opcode table: reads
(43_validity_fsm.md R230, 20_memory.md R65), writes without effect (10_state.md R24), CLEAR_SINK (R232), the sink's
ready signal (R75, R231), `rst` (R280 to R282), and the waits of 30_encoding.md R92. -/

namespace Sys2Proof.Machine

/-- What a host action comes to. -/
inductive HostWork where
  /-- A row of the opcode table, to be executed. -/
  | command (i : Instr)
  /-- The action has taken effect. -/
  | done (s : State)
  | fault (f : Fault)
  | refused (r : Refusal)
  deriving DecidableEq, Repr

/-- A host access the bus decode rejects (R24, R64, R65, R74, R235). -/
def rejectAccess (e : DecodeError) (s : State) : HostWork :=
  match e with
  | .registerAccess o w => .refused (.registerAccess o w)
  | .windowAccess o w => .refused (.windowAccess o w)
  | .outsideMap o => .fault (.outsideAddressMap (s.params.base + o))
  | .noEffect | .noByte _ | .lenCutShort => .done s.retire

/-- The address is none of OPF's: below `BASE`, or past the map of R74 (log 15). -/
def State.outside (s : State) (addr : Nat) : Bool :=
  decide (addr < s.params.base) || decide (s.params.base + Config.mapEnd ≤ addr)

/-- A host write: the command it is, or no effect, or a rejection; ignored in reset (R280). -/
def hostWrite (addr width : Nat) (d : Word) (s : State) : HostWork :=
  if s.outside addr then .fault (.outsideAddressMap addr)
  else match decodeBus s.params.pktMax (addr - s.params.base) width d with
    | .ok i => .command i
    | .error e => if s.rst then .done s.retire else rejectAccess e s

/-- The read returns `w`, having drawn `k` free values. Nothing else changes (R68). -/
def returnRead (w : Word) (k : Nat) (s : State) : State :=
  { s.retire with busData := w, draws := s.draws + k }

/-- The byte a host read of window cell `i` returns: the cell's value; a free byte if nothing has written it (R65,
D38; log 5); 0 at or past `PKT_MAX` (R65, R24). -/
def State.windowByte (s : State) (i draw : Nat) : Byte :=
  if i < s.params.pktMax then (Memory.read s.pktBuf i).getD (Config.freeByte draw) else 0

/-- Four window bytes as a little-endian word (R65). -/
def State.windowWord (s : State) (i : Nat) : Word :=
  s.windowByte (i + 3) (s.draws + 3) ++ s.windowByte (i + 2) (s.draws + 2) ++ s.windowByte (i + 1) (s.draws + 1)
    ++ s.windowByte i s.draws

/-- A register read (R64, R230): a free word from a result register while BUSY (log 6), else the exact value. -/
def readRegister (offset : Nat) (s : State) : State :=
  if s.busy ∧ isResultOffset offset then returnRead (Config.freeWord s.draws) 1 s
  else returnRead (s.registerWord offset) 0 s

/-- A host read at an offset of the map (R64, R65, R74, R230); in reset the block ignores it, and what it returns is free (R280; log 14). -/
def readOffset (offset width : Nat) (s : State) : HostWork :=
  if s.rst then .done (returnRead (Config.freeWord s.draws) 1 s)
  else if offset < Config.pktWinOff then
    if width = 32 ∧ offset % 4 = 0 then .done (readRegister offset s)
    else rejectAccess (.registerAccess offset width) s
  else
    let i := offset - Config.pktWinOff
    if width = 8 then .done (returnRead ((s.windowByte i s.draws).setWidth 32) 1 s)
    else if width = 32 ∧ i % 4 = 0 then .done (returnRead (s.windowWord i) 4 s)
    else rejectAccess (.windowAccess offset width) s

/-- A host read at an address (R74). -/
def hostRead (addr width : Nat) (s : State) : HostWork :=
  if s.outside addr then .fault (.outsideAddressMap addr)
  else readOffset (addr - s.params.base) width s

/-- CLEAR_SINK, in IDLE only (R232, R235.4). -/
def clearSink (s : State) : HostWork :=
  if s.fsm = .idle then .done { s.retire with sink := [] } else .refused .clearSinkWhileBusy

/-- `rst` changes: the reset effect holds from its assertion on, and after its deassertion (R280, R281, R282;
log 14). -/
def setRst (b : Bool) (s : State) : State :=
  if b = s.rst then s.retire else { applyReset s.retire with rst := b }

/-- What a host action comes to. The two waits are taken when what they wait for holds (`hostTurn`); WAIT's last poll
is a read of STATUS (R92; log 23). -/
def hostWork (a : HostAction) (s : State) : HostWork :=
  match a with
  | .write addr width d => hostWrite addr width d s
  | .read addr width => hostRead addr width s
  | .clearSink => clearSink s
  | .setReady b => .done { s.retire with sinkReady := b }
  | .setRst b => .done (setRst b s)
  | .waitDone => .done (returnRead (s.regs.status.word s.busy) 0 s)
  | .waitIrq => .done s.retire

/-- It is the host's turn: its next action's delay is over, or the block is IDLE and has nothing to do before it; a wait
is over when what it waits for holds (R69, R92, R224; log 1, log 23). DESIGN CHOICE (log 14, log 23): while `rst` is
asserted a WAIT's poll sees no DONE and the WAIT is held, although any other read returns a free word then; R280 only says
that host accesses are ignored. So a WAIT queued before the deassertion of `rst` never ends, nor does a WAIT_IRQ. -/
def hostTurn (e : HostEvent) (s : State) : Bool :=
  match e.act with
  | .waitDone => s.regs.status.done && !s.rst
  | .waitIrq => s.irq
  | .write _ _ _ | .read _ _ | .clearSink | .setReady _ | .setRst _ => decide (e.delay = 0) || decide (s.fsm = .idle)

/-- A block step passes: the next host action's delay is one shorter (log 1). -/
def State.countDown (s : State) : State :=
  match s.host with
  | [] => s
  | e :: rest => { s with host := { e with delay := e.delay - 1 } :: rest }

end Sys2Proof.Machine
end

