-- ==== Sys2Proof/Machine/Fetch.lean ====
section
/-! DEFINITION. Sys2Proof/Machine/Fetch.lean: which work the block does next: the packet field at the cursor is read
(20_memory.md R62, R67) and decoded to the row that runs, or a descriptor is accepted, or an error is raised because a
field is not there, or the parse is finished (43_validity_fsm.md R220, R221, R224). -/

namespace Sys2Proof.Machine

/-- The block's next step. -/
inductive BlockWork where
  /-- IDLE, or held in reset: no step (R263, R280). -/
  | rest
  /-- The sink may accept the presented descriptor (R75). -/
  | accept (d : Desc)
  /-- S_FIN runs `finish` (R229). -/
  | finish
  /-- A field the parse needs is not in the packet (R120, R140, R142, R165). -/
  | raise (e : ParseError)
  /-- MemRead of a cell nothing has written (R62). -/
  | fault (f : Fault)
  /-- A row runs in the given state. -/
  | run (i : Instr) (s : State)
  deriving DecidableEq, Repr

/-- `MemRead(i, 1)` (R62; log 4), with what is done with the byte. -/
def memRead (s : State) (i : Nat) (k : Byte → BlockWork) : BlockWork :=
  match Memory.read s.pktBuf i with
  | some b => k b
  | none => .fault (.unwrittenPacketByte i)

/-- Run the row that the bytes of a field decode to (a field of one byte always decodes, R90). -/
def runField (f : Format) (bytes : List Byte) (s : State) : BlockWork :=
  match decodeField f bytes with
  | .ok (i, _) => .run i s
  | .error _ => .raise .packetTooSmall

/-- LEN_DECODE(p, end) (R140): `fail` is PacketTooSmall at every caller (R164, R170, R171). The second byte is read
only if the first asks for it. -/
def lenField (p stop : Nat) (s : State) : BlockWork :=
  if stop ≤ p then .raise .packetTooSmall
  else memRead s p fun b0 =>
    if b0.toNat ≤ 251 then runField .len [b0] s
    else if stop ≤ p + 1 then .raise .packetTooSmall
    else memRead s (p + 1) fun b1 => runField .len [b0, b1] s

/-- The row of the Code 3 header the running parse has read. -/
def State.c3Current (s : State) : Instr := c3Row s.dp.vbr s.dp.padf s.dp.m

/-- S_TOC (R120): NoTOC if the packet is empty; the TOC byte is read once, and its three rows run one after the other
(log 10). -/
def tocWork (s : State) : BlockWork :=
  match s.tocPhase with
  | .config =>
    if s.dp.len = 0 then .raise .noTOC
    else memRead s 0 fun b => runField .tocConfig [b] { s with toc := b }
  | .stereo => runField .tocStereo [s.toc] s
  | .code => runField .tocCode [s.toc] s

/-- What the FSM does in the state it is in (R220), with nothing presented and no reset. -/
def fsmWork (s : State) : BlockWork :=
  match s.fsm with
  | .idle => .rest
  | .sToc => tocWork s
  | .sC0 => .run .tocCode0 s
  | .sC1 => .run .tocCode1 s
  | .sC2 => if s.expectsLen then lenField 1 s.dp.len.toNat s else .run .tocCode2 s
  | .sC3h =>
    if s.dp.len.toNat < 2 then .raise .packetTooSmall
    else memRead s 1 fun h => runField .c3h [h] s
  | .sC3p =>
    if s.dp.padf then
      if s.dp.len.toNat ≤ s.dp.pos.toNat then .raise .lengthOverflow
      else memRead s s.dp.pos.toNat fun b => runField .pad [b] s
    else .run s.c3Current s
  | .sC3f => if s.expectsLen then lenField s.dp.pos.toNat s.dp.regionEnd.toNat s else .run s.c3Current s
  | .sFin => .finish

/-- The block's next step: held in reset it takes none (R280); a presented descriptor comes first (R75). -/
def nextWork (s : State) : BlockWork :=
  if s.rst then .rest
  else match s.port with
    | some d => .accept d
    | none => fsmWork s

/-- The state in which the block's next work reads the bytes of a packet field of format `f` (log 17, log 18): the
field stands at its place in the packet buffer, and the FSM is where that field is decoded, with LEN large enough. -/
def placeField (f : Format) (b0 b1 : Byte) (s : State) : State :=
  let dp : Datapath := { s.dp with len := 0xFFFF }
  let s1 : State := { s with rst := false, port := none, host := [], dp := dp }
  match f with
  | .tocConfig => { s1 with fsm := .sToc, tocPhase := .config, toc := b0, pktBuf := Memory.write s.pktBuf 0 b0 }
  | .tocStereo => { s1 with fsm := .sToc, tocPhase := .stereo, toc := b0, pktBuf := Memory.write s.pktBuf 0 b0 }
  | .tocCode => { s1 with fsm := .sToc, tocPhase := .code, toc := b0, pktBuf := Memory.write s.pktBuf 0 b0 }
  | .c3h => { s1 with fsm := .sC3h, pktBuf := Memory.write s.pktBuf 1 b0 }
  | .len =>
    { s1 with
      fsm := .sC2
      dp := { dp with fidx := 0, pos := 1 }
      pktBuf := Memory.write (Memory.write s.pktBuf 1 b0) 2 b1 }
  | .pad =>
    { s1 with
      fsm := .sC3p
      dp := { dp with padf := true, pos := 2 }
      pktBuf := Memory.write s.pktBuf 2 b0 }

/-- The state in which the very next step runs the instruction an encoding writes: a packet field at its place, or a
host command at the head of the host's queue (log 17, log 18). -/
def placeEncoding (e : Encoding) (s : State) : State :=
  match e with
  | .packet f bytes => placeField f (bytes.getD 0 0) (bytes.getD 1 0) s
  | .bus offset width d => { s with rst := false, host := ⟨0, .write (s.params.base + offset) width d⟩ :: s.host }

end Sys2Proof.Machine
end

