-- ==== Sys2Proof/Machine/Step.lean ====
section
/-! DEFINITION. Sys2Proof/Machine/Step.lean: one step of the machine: the host's next action, or the block's next work
(43_validity_fsm.md R224, 20_memory.md R69; log 1). -/

namespace Sys2Proof.Machine

/-- One block step (R224). -/
def blockStep (s : State) : Host.Outcome State Fault Refusal :=
  match nextWork s with
  | .rest => .next s
  | .accept d => .next (acceptDesc d s)
  | .finish => .next (finish s)
  | .raise e => .next (raise e s)
  | .fault f => .fault f
  | .run i s' => exec i s'

/-- One host action. -/
def hostStep (a : HostAction) (s : State) : Host.Outcome State Fault Refusal :=
  match hostWork a s with
  | .command i => exec i s
  | .done s' => .next s'
  | .fault f => .fault f
  | .refused r => .refused r

/-- One step: the host's next action if it is the host's turn, else one block step. -/
def step (s : State) : Host.Outcome State Fault Refusal :=
  match s.host with
  | [] => blockStep s
  | e :: _ => if hostTurn e s then hostStep e.act s else blockStep s.countDown

/-- The state in which the next step runs the instruction the table word stands for (log 17, log 18). -/
def State.withFetchWord (s : State) (nbits w : Nat) : State := placeEncoding (tableEncoding nbits w) s

end Sys2Proof.Machine
end

