-- ==== Sys2Proof/Machine/Parse.lean ====
section
/-! DEFINITION. Sys2Proof/Machine/Parse.lean: PARSE as one total function of the packet (42_code_splitter.md R160), which
43_validity_fsm.md R233 allows a model to give beside the FSM. It is written from the rules' pseudocode over exact
naturals (00_scope.md R8) and shares no work with the FSM's steps; that the two agree is a statement. -/

namespace Sys2Proof.Machine

/-- What one parse leaves (R12): its descriptors, its result registers, and its outcome (`none` is OK). -/
structure ParseResult where
  frames   : List Desc
  tocInfo  : TocInfo
  c3Info   : C3Info
  padInfo  : PadInfo
  padData  : PadData
  padTotal : BitVec 17
  outcome  : Option ParseError
  deriving DecidableEq, Repr

/-- Descriptors appended, and the error that stopped the appending, if any. -/
abbrev Emitted := List Desc × Option ParseError

/-- `LEN_DECODE(p, end)` (R140): value and bytes consumed; `none` is `fail`. -/
def lenDecode (pkt : List Byte) (p stop : Nat) : Option (Nat × Nat) :=
  if stop ≤ p then none
  else
    let b0 := (pkt.getD p 0).toNat
    if b0 ≤ 251 then some (b0, 1)
    else if stop ≤ p + 1 then none
    else some (b0 + (pkt.getD (p + 1) 0).toNat * 4, 2)

/-- A run of `Emit`s (R161): each frame is checked and then appended; the first frame too big ends the run. -/
def emitAll (strict : Bool) : List (Nat × Nat) → Emitted
  | [] => ([], none)
  | (off, n) :: rest =>
    if strict = true ∧ 1275 < n then ([], some .frameTooBig)
    else
      let r := emitAll strict rest
      (⟨word16 off, word16 n⟩ :: r.1, r.2)

/-- CODE1 (R163). -/
def parseCode1 (strict : Bool) (len : Nat) : Emitted :=
  if len % 2 = 0 then ([], some .nonOddLength)
  else emitAll strict [(1, (len - 1) / 2), (1 + (len - 1) / 2, (len - 1) / 2)]

/-- CODE2 (R164). -/
def parseCode2 (strict : Bool) (pkt : List Byte) : Emitted :=
  match lenDecode pkt 1 pkt.length with
  | none => ([], some .packetTooSmall)
  | some (n0, n) =>
    if pkt.length - (1 + n) < n0 then ([], some .lengthOverflow)
    else emitAll strict [(1 + n, n0), (1 + n + n0, pkt.length - (1 + n + n0))]

/-- The frames of CODE3_CBR from `pos` on: `k` frames of `f` bytes (R169). -/
def cbrFrames (f : Nat) : Nat → Nat → List (Nat × Nat)
  | 0, _ => []
  | k + 1, pos => (pos, f) :: cbrFrames f k (pos + f)

/-- CODE3_CBR (R169). -/
def parseCbr (strict : Bool) (m pos stop : Nat) : Emitted :=
  if (stop - pos) % m ≠ 0 then ([], some .nonMultipleRemainder)
  else emitAll strict (cbrFrames ((stop - pos) / m) m pos)

/-- CODE3_VBR_INTERLEAVED with `k` explicit lengths to come (R170). -/
def parseInterleaved (strict : Bool) (pkt : List Byte) (stop : Nat) : Nat → Nat → Emitted
  | 0, pos => emitAll strict [(pos, stop - pos)]
  | k + 1, pos =>
    match lenDecode pkt pos stop with
    | none => ([], some .packetTooSmall)
    | some (ni, n) =>
      if stop < pos + n + ni then ([], some .packetTooSmall)
      else match emitAll strict [(pos + n, ni)] with
        | (ds, some e) => (ds, some e)
        | (ds, none) =>
          let r := parseInterleaved strict pkt stop k (pos + n + ni)
          (ds ++ r.1, r.2)

/-- The first loop of CODE3_VBR_GROUPED: `k` lengths read from `pos` on, and the cursor after them (R171). -/
def readLengths (pkt : List Byte) (stop : Nat) : Nat → Nat → Option (List Nat × Nat)
  | 0, pos => some ([], pos)
  | k + 1, pos =>
    match lenDecode pkt pos stop with
    | none => none
    | some (ni, n) => (readLengths pkt stop k (pos + n)).map fun r => (ni :: r.1, r.2)

/-- The frames of CODE3_VBR_GROUPED from `pos` on: the explicit ones, then the rest (R171). -/
def groupedFrames (stop : Nat) : List Nat → Nat → List (Nat × Nat)
  | [], pos => [(pos, stop - pos)]
  | n :: rest, pos => (pos, n) :: groupedFrames stop rest (pos + n)

/-- CODE3_VBR_GROUPED (R171). -/
def parseGrouped (strict : Bool) (pkt : List Byte) (stop m pos : Nat) : Emitted :=
  match readLengths pkt stop (m - 1) pos with
  | none => ([], some .packetTooSmall)
  | some (lens, pos') =>
    if stop < pos' + lens.sum then ([], some .packetTooSmall)
    else emitAll strict (groupedFrames stop lens pos')

/-- PAD_CHAIN over the bytes from index 2 on (R142): chain bytes and padding bytes; `none` is LengthOverflow. -/
def padChain (len : Nat) : List Byte → Nat → Nat → Option (Nat × Nat)
  | [], _, _ => none
  | b :: rest, hdr, data =>
    let data' := data + (if b.toNat = 255 then 254 else b.toNat)
    if len - 2 < hdr + 1 + data' then none
    else if b.toNat = 255 then padChain len rest (hdr + 1) data'
    else some (hdr + 1, data')

/-- The frames of a Code 3 packet in the region `[pos, stop)` (R160, R168 to R171). -/
def parseC3Frames (layout : VbrLayout) (strict vbr : Bool) (m : Nat) (pkt : List Byte) (pos stop : Nat) : Emitted :=
  if m = 0 then ([], none)
  else if vbr = false then parseCbr strict m pos stop
  else match layout with
    | .interleaved => parseInterleaved strict pkt stop (m - 1) pos
    | .grouped => parseGrouped strict pkt stop m pos

/-- The TOC_INFO a TOC byte decodes to (R120). -/
def tocInfoOf (b : Byte) : TocInfo :=
  let k : BitVec 5 := b.extractLsb' 3 5
  let c := configLookup k
  ⟨k, flagBit b 2, b.extractLsb' 0 2, c.mode, c.bw, c.dur, true⟩

/-- The C3_INFO a Code 3 header byte decodes to (R165). -/
def c3InfoOf (h : Byte) : C3Info := ⟨h.extractLsb' 0 6, flagBit h 6, flagBit h 7, true⟩

/-- A parse that decoded no padding (R31 to R33: the registers keep START's zeros). -/
def noPadding (toc : TocInfo) (c3 : C3Info) (r : Emitted) : ParseResult :=
  ⟨r.1, toc, c3, PadInfo.zero, PadData.zero, 0, r.2⟩

/-- CODE3_HDR, CODE3_STRICT, CODE3_PAD_REGION and the frames (R165 to R171). -/
def parseCode3 (layout : VbrLayout) (strict : Bool) (pkt : List Byte) (toc : TocInfo) : ParseResult :=
  match pkt with
  | _ :: h :: rest =>
    let c3 := c3InfoOf h
    let m := c3.m.toNat
    if strict = true ∧ m = 0 then noPadding toc c3 ([], some .noAudio)
    else if strict = true ∧ 240 < toc.dur.half * m then noPadding toc c3 ([], some .tooMuchAudio)
    else if c3.pad = false then
      noPadding toc c3 (parseC3Frames layout strict c3.vbr m pkt 2 pkt.length)
    else match padChain pkt.length rest 0 0 with
      | none => noPadding toc c3 ([], some .lengthOverflow)
      | some (hdr, data) =>
        let stop := pkt.length - data
        let r := parseC3Frames layout strict c3.vbr m pkt (2 + hdr) stop
        ⟨r.1, toc, c3, ⟨word16 hdr, true⟩, ⟨word16 data, word16 stop⟩, BitVec.ofNat 17 (hdr + data), r.2⟩
  | _ => noPadding toc C3Info.zero ([], some .packetTooSmall)

/-- PARSE (R160) of a whole packet. -/
def parse (layout : VbrLayout) (strict : Bool) (pkt : List Byte) : ParseResult :=
  match pkt with
  | [] => noPadding TocInfo.zero C3Info.zero ([], some .noTOC)
  | b :: _ =>
    let toc := tocInfoOf b
    match toc.code.toNat with
    | 0 => noPadding toc C3Info.zero (emitAll strict [(1, pkt.length - 1)])
    | 1 => noPadding toc C3Info.zero (parseCode1 strict pkt.length)
    | 2 => noPadding toc C3Info.zero (parseCode2 strict pkt)
    | _ => parseCode3 layout strict pkt toc

/-- `Valid(pkt, strict, layout)` (R237): PARSE ends with OK. -/
def validPacket (layout : VbrLayout) (strict : Bool) (pkt : List Byte) : Prop :=
  (parse layout strict pkt).outcome = none

end Sys2Proof.Machine
end

