-- ==== Sys2Proof/Safety.lean ====
section
/-! DEFINITION. Sys2Proof/Safety.lean: what counts as a safe run, and the invariants of OPF that statements use. -/

namespace Sys2Proof.Machine

/-- A run of `k` steps without a fault or a refusal, the premise of 60_exceptions.md R254. -/
def SafeRun (k : Nat) (s t : State) : Prop := Host.Core.run Sys2Proof.core k s = .next t

/-- The packet buffer is canonical and holds cells of the buffer only (10_state.md R35). -/
def MemoryInv (s : State) : Prop :=
  Memory.wf s.pktBuf = true ∧ Memory.inside s.params.pktMax s.pktBuf = true

/-- The STATUS flags fit together: BUSY and DONE never both (10_state.md R26), ERR_CODE 0 when ERR = 0 (R26), and
ERR_CODE one of R250's codes. -/
def StatusInv (s : State) : Prop :=
  (s.busy = true → s.regs.status.done = false)
    ∧ (s.regs.status.err = false → s.regs.status.errCode = 0)
    ∧ s.regs.status.errCode.toNat ≤ 8

/-- Every frame presented has been counted or is on the port; a descriptor is presented only by a state that emits
(R30, R75, R161, R220). -/
def PortInv (s : State) : Prop :=
  s.regs.numFrames = s.dp.nf
    ∧ s.dp.nf.toNat + (if s.port.isSome then 1 else 0) = s.dp.fidx.toNat
    ∧ (s.port.isSome = true → s.fsm = .sC0 ∨ s.fsm = .sC1 ∨ s.fsm = .sC2 ∨ s.fsm = .sC3f)

/-- The running Code 3 packet's header, chain and cursor fit together once the frames are reached (R167 to R171). -/
def FrameRegionInv (s : State) : Prop :=
  s.dp.regionEnd.toNat + s.dp.padData.toNat = s.dp.len.toNat
    ∧ 2 + s.dp.padHdr.toNat ≤ s.dp.pos.toNat
    ∧ s.dp.pos.toNat ≤ s.dp.regionEnd.toNat
    ∧ s.dp.fidx.toNat ≤ s.dp.m.toNat
    ∧ (s.dp.vbr = false →
        s.dp.pos.toNat = 2 + s.dp.padHdr.toNat + s.dp.fidx.toNat * (cbrRemainder s / s.dp.m.toNat)
          ∧ (s.dp.fidx ≠ 0 → cbrRemainder s % s.dp.m.toNat = 0))
    ∧ (s.dp.lens = [] ∨ s.dp.lens.length + 1 ≤ s.dp.m.toNat)
    ∧ (s.dp.fidx ≠ 0 → s.dp.vbr = true → s.params.layout = .grouped →
        s.dp.lens.length + 1 = s.dp.m.toNat
          ∧ s.dp.pos.toNat + ((s.dp.lens.drop s.dp.fidx.toNat).map BitVec.toNat).sum ≤ s.dp.regionEnd.toNat)

/-- What holds of the cursor and the counts in each FSM state (R22, R66). -/
def StageInv (s : State) : Prop :=
  match s.fsm with
  | .idle | .sFin => True
  | .sToc => s.dp.fidx = 0 ∧ s.dp.lens = [] ∧ s.dp.lsum = 0 ∧ (s.tocPhase = .config ∨ s.dp.len ≠ 0)
  | .sC0 | .sC1 => s.dp.len ≠ 0
  | .sC2 => s.dp.len ≠ 0
  | .sC3h => s.dp.fidx = 0 ∧ s.dp.lens = [] ∧ s.dp.lsum = 0
  | .sC3p =>
    s.dp.fidx = 0 ∧ s.dp.lens = [] ∧ s.dp.lsum = 0
      ∧ s.dp.pos.toNat = 2 + s.dp.padHdr.toNat
      ∧ 2 + s.dp.padHdr.toNat + s.dp.padData.toNat ≤ s.dp.len.toNat
  | .sC3f => FrameRegionInv s

/-- The datapath's values never leave their registers (20_memory.md R66, 10_state.md R22): the latched length is at most
`PKT_MAX`, the cursor and the frame region never pass it, the length sum is exact, and each FSM state's own facts
hold. -/
def DatapathInv (s : State) : Prop :=
  s.params.ok = true
    ∧ s.dp.len.toNat ≤ s.params.pktMax
    ∧ s.dp.pos.toNat ≤ s.dp.len.toNat
    ∧ s.dp.regionEnd.toNat ≤ s.dp.len.toNat
    ∧ s.dp.lsum.toNat = (s.dp.lens.map BitVec.toNat).sum
    ∧ s.dp.lens.length ≤ 62
    ∧ (∀ n ∈ s.dp.lens, n.toNat ≤ 1275)
    ∧ StageInv s

/-- The invariant of OPF. -/
def OpfInv (s : State) : Prop := MemoryInv s ∧ StatusInv s ∧ PortInv s ∧ DatapathInv s

/-- The packet `pkt` stands in the buffer and PKT_LEN selects it (70_reset_and_hazards.md R283). -/
def PacketLoaded (pkt : List Byte) (s : State) : Prop :=
  s.regs.pktLen.toNat = pkt.length ∧ ∀ i, i < pkt.length → Memory.read s.pktBuf i = pkt[i]?

/-- Nothing holds the block up: the sink accepts, no reset is held, and the host issues nothing. -/
def Undisturbed (s : State) : Prop := s.sinkReady = true ∧ s.rst = false ∧ s.host = []

/-- The block has the results of `r`, and its descriptors after those that SINK held before (R12, R233). -/
def HoldsResult (r : ParseResult) (sinkBefore : List Desc) (t : State) : Prop :=
  t.fsm = .idle
    ∧ t.sink = sinkBefore ++ r.frames
    ∧ t.regs.tocInfo = r.tocInfo
    ∧ t.regs.c3Info = r.c3Info
    ∧ t.regs.numFrames.toNat = r.frames.length
    ∧ t.regs.padInfo = r.padInfo
    ∧ t.regs.padData = r.padData
    ∧ t.regs.padTotal = r.padTotal
    ∧ t.regs.status = Status.ofOutcome r.outcome

/-- The packet field the block reads next: its format, the index of its first byte, and one past the last index it may
use (R62, R120, R140, R142, R165). `none` where the next work reads no byte. -/
def awaitedField (s : State) : Option (Format × Nat × Nat) :=
  match s.fsm with
  | .sToc => if s.tocPhase = .config then some (.tocConfig, 0, s.dp.len.toNat) else none
  | .sC2 => if s.expectsLen then some (.len, 1, s.dp.len.toNat) else none
  | .sC3h => some (.c3h, 1, s.dp.len.toNat)
  | .sC3p => if s.dp.padf then some (.pad, s.dp.pos.toNat, s.dp.len.toNat) else none
  | .sC3f => if s.expectsLen then some (.len, s.dp.pos.toNat, s.dp.regionEnd.toNat) else none
  | .idle | .sC0 | .sC1 | .sFin => none

/-- The bytes `used` stand in the packet buffer from index `p` on. -/
def StandsAt (s : State) (p : Nat) (used : List Byte) : Prop :=
  ∀ k, k < used.length → Memory.read s.pktBuf (p + k) = used[k]?

/-- It is the block's turn: the host's next action, if there is one, waits (R224; log 1). -/
def BlockTurn (s : State) : Prop := ∀ e rest, s.host = e :: rest → hostTurn e s = false

/-- The block is in the FSM state `f`, presents nothing and is not held in reset. -/
def Working (f : Fsm) (s : State) : Prop := s.fsm = f ∧ s.port = none ∧ s.rst = false

/-- The FSM state a Code is dispatched to (R221). -/
def codeState (c : BitVec 2) : Fsm :=
  match c.toNat with
  | 0 => .sC0
  | 1 => .sC1
  | 2 => .sC2
  | _ => .sC3h

/-- The state with the cursor at `p`. -/
def withPos (p : Nat) (s : State) : State := { s with dp := { s.dp with pos := word16 p } }

/-- The rows of the packet, as against the host's commands (R93). -/
def isPacketRow : Instr → Bool
  | .setCtrl _ | .start _ | .ackDone _ | .setLen _ | .writePkt _ _ => false
  | _ => true

end Sys2Proof.Machine
end

