-- ==== Sys2Proof/Certificates/Slice0/Obligations.lean ====
section
/-! DEFINITION. Sys2Proof/Certificates/Slice0/Obligations.lean: the statements about OPF, each with the rule of the spec
it formalises. An equation `exec i s = .next { s with … }` says its frame too: every field it does not name, every byte
of the packet buffer among them, is unchanged. -/

open Sys2Proof Sys2Proof.Machine

/-! ### Encodings -/

/-- 30_encoding.md, sections 1 to 3: decoding the bits of a well-formed instruction gives it back, with every operand
at every value its encoding admits. WRITE_PKT's cell must be a cell of the buffer. -/
def Obligations.DecodeEncodeRoundTrip : Prop :=
  ∀ (pktMax : Nat) (i : Instr), i.wellFormed = true → (∀ j v, i = .writePkt j v → j.toNat < pktMax) →
    decode pktMax (encode i) = .ok i

/-- R81: the TOC byte's three fields are bits 7:3, bit 2 and bits 1:0, and each of the 256 byte values has them. -/
def Obligations.TocByteFieldsDecode : Prop :=
  (∀ (cfg : BitVec 5) (st : Bool) (code : BitVec 2) (rest : List Byte),
    decodeField .tocConfig (tocByte cfg st code :: rest) = .ok (tocConfigRow cfg, rest)
      ∧ decodeField .tocStereo (tocByte cfg st code :: rest) = .ok (if st then .tocStereo else .tocMono, rest)
      ∧ decodeField .tocCode (tocByte cfg st code :: rest) = .ok (tocCodeRow code, rest))
  ∧ ∀ b : Byte, tocByte (b.extractLsb' 3 5) (flagBit b 2) (b.extractLsb' 0 2) = b

/-- 30_encoding.md, the length field (R84): the first byte decides the form, the values are 0 to 251 in one byte and
252 to 1275 in two. That each value 0 to 1275 has exactly one encoding is the spec's own inference there. -/
def Obligations.LengthFieldHasOneEncoding : Prop :=
  (∀ (b0 b1 : Byte) (rest : List Byte),
    (b0.toNat ≤ 251 → decodeField .len (b0 :: b1 :: rest) = .ok (.len1 b0, b1 :: rest) ∧
      lenRowValue (.len1 b0) = some (b0.toNat, 1))
    ∧ (252 ≤ b0.toNat → decodeField .len (b0 :: b1 :: rest) = .ok (.len2 b0 b1, rest) ∧
      lenRowValue (.len2 b0 b1) = some (b0.toNat + b1.toNat * 4, 2)))
  ∧ (∀ (i : Instr) (v n : Nat), i.wellFormed = true → lenRowValue i = some (v, n) →
      (n = 1 ∧ v ≤ 251) ∨ (n = 2 ∧ 252 ≤ v ∧ v ≤ 1275))
  ∧ ∀ v, v ≤ 1275 → ∃! i : Instr, i.wellFormed = true ∧ ∃ n, lenRowValue i = some (v, n)

/-- 41_length_decoder.md, the range of LEN_DECODE (the spec's own inference in R141): no explicit length exceeds 1275,
so the strict frame-size check never fires in the step of a length field. The grouped layout's later frames are in
`Code3VbrGroupedFrames`. -/
def Obligations.ExplicitFrameNeverTooBig : Prop :=
  ∀ (i : Instr) (v n : Nat) (s t : State), i.wellFormed = true → lenRowValue i = some (v, n) →
    v ≤ 1275 ∧ (exec i s = .next t → s.outcome ≠ some .frameTooBig → t.outcome ≠ some .frameTooBig)

/-- 30_encoding.md R81, R83, R84, R85, R89 on a few words written out bit by bit. -/
def Obligations.SampleWordsDecode : Prop :=
  decodeField .tocConfig [0b01100001] = .ok (.cfg12, [])
    ∧ decodeField .tocStereo [0b01100101] = .ok (.tocStereo, [])
    ∧ decodeField .tocCode [0b01100001] = .ok (.tocCode1, [])
    ∧ decodeField .c3h [0b11000011] = .ok (.c3VbrPad 3, [])
    ∧ decodeField .len [0b11111101, 0b00010000] = .ok (.len2 0xFD 0x10, [])
    ∧ decodeField .pad [0b11111111, 0b00000000] = .ok (.padCont, [0])
    ∧ decodeBus 65535 0x00 32 0b111 = .ok (.start 7)
    ∧ decodeBus 65535 0x10001 8 0x22 = .ok (.writePkt 1 (.byte 0x22))

/-- 10_state.md, section 2 (the tables of CTRL to PAD_TOTAL): each register word carries its fields at their bits, and
reserved bits read 0. -/
def Obligations.RegisterWordsCarryTheirFields : Prop :=
  ∀ s : State,
    (let w := s.registerWord 0x00;
      flagBit w 0 = false ∧ flagBit w 1 = s.regs.ctrl.strict ∧ flagBit w 2 = s.regs.ctrl.irqEn
        ∧ w.extractLsb' 3 29 = 0)
    ∧ (let w := s.registerWord 0x04;
      flagBit w 0 = decide (s.fsm ≠ .idle) ∧ flagBit w 1 = s.regs.status.done ∧ flagBit w 2 = s.regs.status.err
        ∧ flagBit w 3 = false ∧ w.extractLsb' 4 4 = s.regs.status.errCode ∧ w.extractLsb' 8 24 = 0)
    ∧ (let w := s.registerWord 0x08;
      w.extractLsb' 0 16 = s.regs.pktLen ∧ w.extractLsb' 16 16 = 0)
    ∧ (let w := s.registerWord 0x0C;
      w.extractLsb' 0 5 = s.regs.tocInfo.config ∧ flagBit w 5 = s.regs.tocInfo.stereo
        ∧ w.extractLsb' 6 2 = s.regs.tocInfo.code ∧ w.extractLsb' 8 2 = s.regs.tocInfo.mode.toBits
        ∧ w.extractLsb' 10 3 = s.regs.tocInfo.bw.toBits ∧ w.extractLsb' 13 3 = s.regs.tocInfo.dur.toBits
        ∧ w.extractLsb' 16 15 = 0 ∧ flagBit w 31 = s.regs.tocInfo.valid)
    ∧ (let w := s.registerWord 0x10;
      w.extractLsb' 0 6 = s.regs.c3Info.m ∧ flagBit w 6 = s.regs.c3Info.pad ∧ flagBit w 7 = s.regs.c3Info.vbr
        ∧ w.extractLsb' 8 23 = 0 ∧ flagBit w 31 = s.regs.c3Info.valid)
    ∧ (let w := s.registerWord 0x14;
      w.extractLsb' 0 16 = s.regs.numFrames ∧ w.extractLsb' 16 16 = 0)
    ∧ (let w := s.registerWord 0x18;
      w.extractLsb' 0 16 = s.regs.padInfo.hdrLen ∧ w.extractLsb' 16 15 = 0 ∧ flagBit w 31 = s.regs.padInfo.valid)
    ∧ (let w := s.registerWord 0x1C;
      w.extractLsb' 0 16 = s.regs.padData.len ∧ w.extractLsb' 16 16 = s.regs.padData.off)
    ∧ (let w := s.registerWord 0x20;
      w.extractLsb' 0 17 = s.regs.padTotal ∧ w.extractLsb' 17 15 = 0)

/-! ### The step and what it runs -/

/-- 20_memory.md, 30_encoding.md and 43_validity_fsm.md (R62, R80, R224): where the block awaits a packet field and
its bytes, inside the window the field may use, decode to the row `i`, the step is `exec i`: at the state whose host
delay is one shorter, and with the TOC byte kept if it is the TOC byte that was read (log 10). -/
def Obligations.StepRunsTheDecodedField : Prop :=
  ∀ (s : State) (f : Format) (p stop : Nat) (used : List Byte) (i : Instr),
    s.port = none → s.rst = false → BlockTurn s →
    awaitedField s = some (f, p, stop) → p + used.length ≤ stop →
    StandsAt s p used → decodeField f used = .ok (i, []) →
    step s = exec i (if f = .tocConfig then { s.countDown with toc := used.headD 0 } else s.countDown)

/-- The rows of the TOC byte after its first, and the rows of the running Code where no field is due, are run by the
step from the TOC byte kept and from the header's fields (R120, R220; log 10). -/
def Obligations.StepRunsTheCurrentRow : Prop :=
  ∀ s : State, s.port = none → s.rst = false → BlockTurn s →
    (s.fsm = .sToc → s.tocPhase = .stereo → step s = exec (tocStereoRow (flagBit s.toc 2)) s.countDown)
    ∧ (s.fsm = .sToc → s.tocPhase = .code → step s = exec (tocCodeRow (s.toc.extractLsb' 0 2)) s.countDown)
    ∧ (s.fsm = .sC0 → step s = exec .tocCode0 s.countDown)
    ∧ (s.fsm = .sC1 → step s = exec .tocCode1 s.countDown)
    ∧ (s.fsm = .sC2 → s.expectsLen = false → step s = exec .tocCode2 s.countDown)
    ∧ (s.fsm = .sC3p → s.dp.padf = false → step s = exec (c3Row s.dp.vbr s.dp.padf s.dp.m) s.countDown)
    ∧ (s.fsm = .sC3f → s.expectsLen = false → step s = exec (c3Row s.dp.vbr s.dp.padf s.dp.m) s.countDown)

/-- 30_encoding.md and 20_memory.md (R89, R74): when the host's next action is a bus write that decodes to a command,
and it is the host's turn, the step is `exec` of that command. -/
def Obligations.StepRunsTheHostCommand : Prop :=
  ∀ (s : State) (delay offset width : Nat) (d : Word) (rest : List HostEvent) (i : Instr),
    s.host = ⟨delay, .write (s.params.base + offset) width d⟩ :: rest → delay = 0 ∨ s.fsm = .idle →
    decodeBus s.params.pktMax offset width d = .ok i →
    step s = exec i s

/-- 20_memory.md (R62): the block's read of a packet cell that nothing has written is the model fault
UnwrittenPacketByte at that cell's index: the first byte of the awaited field, or the second byte of a length field whose
first byte is 252 or more. The block reads no other byte. -/
def Obligations.UnwrittenFieldByteFaults : Prop :=
  ∀ (s : State) (f : Format) (p stop : Nat), s.port = none → s.rst = false → BlockTurn s →
    awaitedField s = some (f, p, stop) →
    (p < stop → Memory.read s.pktBuf p = none → step s = .fault (.unwrittenPacketByte p))
    ∧ (f = .len → p + 1 < stop → ∀ b0, Memory.read s.pktBuf p = some b0 → 252 ≤ b0.toNat →
        Memory.read s.pktBuf (p + 1) = none → step s = .fault (.unwrittenPacketByte (p + 1)))

/-- R140: LEN_DECODE's `fail` is PacketTooSmall where the block awaits a length field: the window is empty, or its only
byte is 252 or more. Otherwise LEN1 or LEN2 runs, with the value and size R140 gives. No byte at or past the window's
end is read. -/
def Obligations.LengthFieldDecoded : Prop :=
  ∀ (s : State) (p stop : Nat) (b0 b1 : Byte), s.port = none → s.rst = false → s.host = [] →
    awaitedField s = some (.len, p, stop) →
    (stop ≤ p → step s = .next (raise .packetTooSmall s))
    ∧ (p < stop → Memory.read s.pktBuf p = some b0 →
        (b0.toNat ≤ 251 → step s = exec (.len1 b0) s ∧ lenRowValue (.len1 b0) = some (b0.toNat, 1))
        ∧ (252 ≤ b0.toNat → stop ≤ p + 1 → step s = .next (raise .packetTooSmall s))
        ∧ (252 ≤ b0.toNat → p + 1 < stop → Memory.read s.pktBuf (p + 1) = some b1 →
            step s = exec (.len2 b0 b1) s
              ∧ lenRowValue (.len2 b0 b1) = some (b0.toNat + b1.toNat * 4, 2)
              ∧ b0.toNat + b1.toNat * 4 ≤ 1275))

/-! ### The TOC byte -/

/-- 40_toc_config.md, CONFIG_LOOKUP (R121) with 30_encoding.md's codes: each of the 32 rows gives the MODE, BW and DUR
the table prints, no two rows are the same, and 12 are SILK, 4 Hybrid and 16 CELT. The index assignment is the spec's
own, marked there as general knowledge (log 22). -/
def Obligations.ConfigurationTableRows : Prop :=
  let codes := fun k : BitVec 5 =>
    ((configLookup k).mode.toBits.toNat, (configLookup k).bw.toBits.toNat, (configLookup k).dur.toBits.toNat)
  (∀ k : BitVec 5, some (codes k) =
      ([(0, 0, 2), (0, 0, 3), (0, 0, 4), (0, 0, 5), (0, 1, 2), (0, 1, 3), (0, 1, 4), (0, 1, 5),
        (0, 2, 2), (0, 2, 3), (0, 2, 4), (0, 2, 5), (2, 3, 2), (2, 3, 3), (2, 4, 2), (2, 4, 3),
        (1, 0, 0), (1, 0, 1), (1, 0, 2), (1, 0, 3), (1, 2, 0), (1, 2, 1), (1, 2, 2), (1, 2, 3),
        (1, 3, 0), (1, 3, 1), (1, 3, 2), (1, 3, 3), (1, 4, 0), (1, 4, 1), (1, 4, 2), (1, 4, 3)])[k.toNat]?)
    ∧ (∀ k k' : BitVec 5, configLookup k = configLookup k' → k = k')
    ∧ (configRom.filter fun c => c.mode = .silk).length = 12
    ∧ (configRom.filter fun c => c.mode = .hybrid).length = 4
    ∧ (configRom.filter fun c => c.mode = .celt).length = 16

/-- 40_toc_config.md TOC_DECODE, configuration part (R120, R121): each of CFG_00 to CFG_31 writes CONFIG, MODE, BW, DUR
and `dp.dur` from its ROM row, and nothing else. Where the three rows of a TOC byte are cut into steps is the model's
choice (log 10). -/
def Obligations.ConfigurationRowsWriteTocInfo : Prop :=
  (∀ (k : BitVec 5) (s : State), Working .sToc s → s.tocPhase = .config →
    exec (tocConfigRow k) s = .next { s with
      regs := { s.regs with tocInfo := { s.regs.tocInfo with
        config := k, mode := (configLookup k).mode, bw := (configLookup k).bw, dur := (configLookup k).dur } }
      dp := { s.dp with dur := (configLookup k).dur }
      tocPhase := .stereo })
  ∧ ∀ i : Instr, (∃ k, tocConfigRow k = i) ↔ i ∈
      [Instr.cfg00, .cfg01, .cfg02, .cfg03, .cfg04, .cfg05, .cfg06, .cfg07, .cfg08, .cfg09, .cfg10, .cfg11, .cfg12,
       .cfg13, .cfg14, .cfg15, .cfg16, .cfg17, .cfg18, .cfg19, .cfg20, .cfg21, .cfg22, .cfg23, .cfg24, .cfg25, .cfg26,
       .cfg27, .cfg28, .cfg29, .cfg30, .cfg31]

/-- 40_toc_config.md TOC_DECODE, stereo and Code parts, and 43_validity_fsm.md's dispatch (R120, R221): TOC_MONO and
TOC_STEREO write STEREO; TOC_CODE0 to TOC_CODE3 write CODE, TOC_VALID, `dp.code` and `pos = 1`, and go to the Code's
state; nothing else changes (log 10). -/
def Obligations.StereoAndCodeRowsWriteTocInfo : Prop :=
  ∀ s : State, Working .sToc s →
    (s.tocPhase = .stereo →
      exec .tocMono s = .next { s with
        regs := { s.regs with tocInfo := { s.regs.tocInfo with stereo := false } }, tocPhase := .code }
      ∧ exec .tocStereo s = .next { s with
        regs := { s.regs with tocInfo := { s.regs.tocInfo with stereo := true } }, tocPhase := .code })
    ∧ (s.tocPhase = .code → ∀ i c f,
      (i, c, f) ∈ [(Instr.tocCode0, 0#2, Fsm.sC0), (.tocCode1, 1#2, .sC1), (.tocCode2, 2#2, .sC2),
        (.tocCode3, 3#2, .sC3h)] →
      exec i s = .next { s with
        regs := { s.regs with tocInfo := { s.regs.tocInfo with code := c, valid := true } }
        dp := { s.dp with code := c, pos := 1 }
        fsm := f })

/-- R120: TOC_DECODE as a whole: NoTOC if the packet is empty; else TOC_INFO holds every field of the byte and
TOC_VALID, at the bits the rule's formula gives, `dp.code` and `dp.dur` are set and `pos = 1`. The model's own fields
`toc` and `tocPhase` may change. -/
def Obligations.TocDecodeOfAByte : Prop :=
  ∀ (s : State) (b : Byte), Working .sToc s → s.tocPhase = .config → s.host = [] →
    (s.dp.len = 0 → step s = .next (raise .noTOC s))
    ∧ (s.dp.len ≠ 0 → Memory.read s.pktBuf 0 = some b →
        let k : BitVec 5 := b.extractLsb' 3 5
        let c := configLookup k
        let toc : TocInfo := ⟨k, flagBit b 2, b.extractLsb' 0 2, c.mode, c.bw, c.dur, true⟩
        (∃ n t, SafeRun n s t ∧ t = { s with
          regs := { s.regs with tocInfo := toc }
          dp := { s.dp with code := b.extractLsb' 0 2, dur := c.dur, pos := 1 }
          toc := t.toc
          tocPhase := t.tocPhase
          fsm := codeState (b.extractLsb' 0 2) })
        ∧ toc.word = (c.dur.toBits.setWidth 32 <<< 13 ||| c.bw.toBits.setWidth 32 <<< 10
            ||| c.mode.toBits.setWidth 32 <<< 8 ||| (b.extractLsb' 0 2).setWidth 32 <<< 6
            ||| (b.extractLsb' 2 1).setWidth 32 <<< 5 ||| k.setWidth 32) ||| 1#32 <<< 31)

/-! ### Emitting frames -/

/-- 42_code_splitter.md, Emit (R161): the strict check comes first and leaves SINK and NUM_FRAMES alone; a frame that
passes is presented, and once the sink accepts it, it is the last entry of SINK and is counted in `nf` and NUM_FRAMES.
That presenting and accepting are two steps is the model's choice (log 11). -/
def Obligations.EmitChecksThenAppends : Prop :=
  ∀ (off n pos' : Nat) (s : State),
    (s.dp.strict = true ∧ 1275 < n → emit off n pos' s = raise .frameTooBig s
      ∧ (emit off n pos' s).sink = s.sink ∧ (emit off n pos' s).regs.numFrames = s.regs.numFrames)
    ∧ (s.dp.strict = false ∨ n ≤ 1275 → ∃ t, emit off n pos' s = t ∧ t.port = some ⟨word16 off, word16 n⟩
      ∧ t.fsm = s.fsm ∧ t.outcome = s.outcome ∧ t.sink = s.sink ∧ t.regs = s.regs ∧ t.dp.nf = s.dp.nf
      ∧ (Undisturbed s → step t = .next { t with
          port := none
          sink := s.sink ++ [⟨word16 off, word16 n⟩]
          dp := { t.dp with nf := s.dp.nf + 1 }
          regs := { s.regs with numFrames := s.dp.nf + 1 } }))

/-- 43_validity_fsm.md, sink acceptance (R231): while the sink does not accept, the block stays in its Emit step with
BUSY = 1, for any number of steps. That a descriptor is on the port only while the FSM emits is the invariant
`PortInv`. -/
def Obligations.StalledSinkHoldsTheBlock : Prop :=
  ∀ (s : State) (d : Desc) (k : Nat), PortInv s → s.port = some d → s.sinkReady = false → s.rst = false →
    s.host = [] → SafeRun k s s ∧ s.busy = true

/-- 42_code_splitter.md, CODE0 (R162): it emits the rest of the packet as the one frame, and then the parse is complete;
FrameTooBig, strict only, when `LEN - 1 > 1275`. Step by step first, an Emit by its presentation; then the undisturbed
run to the end of the work. That Emit is two steps, and that `fidx` counts at the first while SINK waits for the second,
is the model's choice (log 11). -/
def Obligations.Code0OneFrame : Prop :=
  ∀ s : State, Working .sC0 s →
    (s.dp.fidx = 0 → s.dp.strict = true ∧ 1275 < s.dp.len.toNat - 1 →
      exec .tocCode0 s = .next (raise .frameTooBig s))
    ∧ (s.dp.fidx = 0 → s.dp.strict = false ∨ s.dp.len.toNat - 1 ≤ 1275 →
      exec .tocCode0 s = .next { s with
        port := some ⟨1, word16 (s.dp.len.toNat - 1)⟩, dp := { s.dp with fidx := 1 } })
    ∧ (s.dp.fidx ≠ 0 → exec .tocCode0 s = .next (complete s))
    ∧ (s.dp.fidx = 0 → Undisturbed s → s.dp.strict = false ∨ s.dp.len.toNat - 1 ≤ 1275 →
      ∃ k t, SafeRun k s t ∧ t.fsm = .sFin ∧ t.outcome = none
        ∧ t.sink = s.sink ++ [⟨1, word16 (s.dp.len.toNat - 1)⟩] ∧ t.regs.numFrames = s.dp.nf + 1)

/-- 42_code_splitter.md, CODE1 (R163; 90_conflicts.md C1): NonOddLength on an even packet length; else two frames of
`(LEN - 1) / 2` bytes, the second right after the first, each with Emit's strict check. Step by step first, then the
undisturbed run. That Emit is two steps, and that `fidx` counts at the first while SINK waits for the second, is the
model's choice (log 11). -/
def Obligations.Code1TwoEqualFrames : Prop :=
  ∀ s : State, Working .sC1 s →
    let h := (s.dp.len.toNat - 1) / 2
    (s.dp.fidx = 0 → s.dp.len.toNat % 2 = 0 → exec .tocCode1 s = .next (raise .nonOddLength s))
    ∧ (s.dp.fidx = 0 → s.dp.len.toNat % 2 = 1 → s.dp.strict = true ∧ 1275 < h →
      exec .tocCode1 s = .next (raise .frameTooBig s))
    ∧ (s.dp.fidx = 0 → s.dp.len.toNat % 2 = 1 → s.dp.strict = false ∨ h ≤ 1275 →
      exec .tocCode1 s = .next { s with port := some ⟨1, word16 h⟩, dp := { s.dp with fidx := 1 } })
    ∧ (s.dp.fidx = 1 → s.dp.strict = true ∧ 1275 < h → exec .tocCode1 s = .next (raise .frameTooBig s))
    ∧ (s.dp.fidx = 1 → s.dp.strict = false ∨ h ≤ 1275 →
      exec .tocCode1 s = .next { s with port := some ⟨word16 (1 + h), word16 h⟩, dp := { s.dp with fidx := 2 } })
    ∧ (s.dp.fidx ≠ 0 → s.dp.fidx ≠ 1 → exec .tocCode1 s = .next (complete s))
    ∧ (s.dp.fidx = 0 → Undisturbed s → s.dp.len.toNat % 2 = 1 → s.dp.strict = false ∨ h ≤ 1275 →
      ∃ k t, SafeRun k s t ∧ t.fsm = .sFin ∧ t.outcome = none
        ∧ t.sink = s.sink ++ [⟨1, word16 h⟩, ⟨word16 (1 + h), word16 h⟩] ∧ t.regs.numFrames = s.dp.nf + 2)

/-- 42_code_splitter.md, CODE2 (R164): the length field is decoded in the window `[1, LEN)`, as `LengthFieldDecoded`
says, and PacketTooSmall is raised if it is missing or cut short; LengthOverflow if frame 0 is larger than what is left
after the field; else frame 0, then frame 1 to the end of the packet, each with Emit's strict check, then complete. Step
by step first, then the undisturbed run. That Emit is two steps, and that `pos` and `fidx` move at the first while SINK
waits for the second, is the model's choice (log 11). -/
def Obligations.Code2ExplicitThenRest : Prop :=
  ∀ (s : State) (i : Instr) (v n : Nat), Working .sC2 s → i.wellFormed = true → lenRowValue i = some (v, n) →
    (s.dp.fidx = 0 → awaitedField s = some (.len, 1, s.dp.len.toNat))
    ∧ (s.dp.fidx = 0 → s.host = [] → s.dp.len.toNat ≤ 1
          ∨ (s.dp.len.toNat = 2 ∧ ∃ b0, Memory.read s.pktBuf 1 = some b0 ∧ 252 ≤ b0.toNat) →
        step s = .next (raise .packetTooSmall s))
    ∧ (s.dp.fidx = 0 → s.dp.len.toNat - (1 + n) < v →
      exec i s = .next (raise .lengthOverflow (withPos (1 + n) s)))
    ∧ (s.dp.fidx = 0 → v ≤ s.dp.len.toNat - (1 + n) →
      exec i s = .next { s with
        port := some ⟨word16 (1 + n), word16 v⟩
        dp := { s.dp with pos := word16 (1 + n + v), fidx := 1 } })
    ∧ (s.dp.fidx = 1 → s.dp.strict = true ∧ 1275 < s.dp.len.toNat - s.dp.pos.toNat →
      exec .tocCode2 s = .next (raise .frameTooBig s))
    ∧ (s.dp.fidx = 1 → s.dp.strict = false ∨ s.dp.len.toNat - s.dp.pos.toNat ≤ 1275 →
      exec .tocCode2 s = .next { s with
        port := some ⟨s.dp.pos, word16 (s.dp.len.toNat - s.dp.pos.toNat)⟩
        dp := { s.dp with fidx := 2 } })
    ∧ (s.dp.fidx ≠ 0 → s.dp.fidx ≠ 1 → exec .tocCode2 s = .next (complete s))
    ∧ (s.dp.fidx = 0 → Undisturbed s → v ≤ s.dp.len.toNat - (1 + n) →
        s.dp.strict = false ∨ s.dp.len.toNat - (1 + n + v) ≤ 1275 →
      ∃ t1 k t, exec i s = .next t1 ∧ SafeRun k t1 t ∧ t.fsm = .sFin ∧ t.outcome = none
        ∧ t.sink = s.sink ++ [⟨word16 (1 + n), word16 v⟩,
            ⟨word16 (1 + n + v), word16 (s.dp.len.toNat - (1 + n + v))⟩]
        ∧ t.regs.numFrames = s.dp.nf + 2)

/-! ### Code 3 -/

/-- R165: PacketTooSmall when `LEN < 2`; else the header byte's bit 7 is VBR, bit 6 is padding, bits 5:0 are M, and its
row writes C3_INFO with C3_VALID, `vbr`, `padf`, `M` and `pos = 2`, in strict and lenient mode alike. -/
def Obligations.Code3HeaderRead : Prop :=
  ∀ (s : State) (h : Byte), Working .sC3h s → s.host = [] →
    (s.dp.len.toNat < 2 → step s = .next (raise .packetTooSmall s))
    ∧ (2 ≤ s.dp.len.toNat → Memory.read s.pktBuf 1 = some h →
        ∃ t, step s = .next t ∧ exec (c3Row (flagBit h 7) (flagBit h 6) (h.extractLsb' 0 6)) s = .next t
          ∧ t.registerWord 0x10 = ((h.extractLsb' 7 1).setWidth 32 <<< 7 ||| (h.extractLsb' 6 1).setWidth 32 <<< 6
              ||| (h.extractLsb' 0 6).setWidth 32) ||| 1#32 <<< 31
          ∧ t.regs.c3Info = ⟨h.extractLsb' 0 6, flagBit h 6, flagBit h 7, true⟩
          ∧ t.dp.vbr = flagBit h 7 ∧ t.dp.padf = flagBit h 6 ∧ t.dp.m = h.extractLsb' 0 6 ∧ t.dp.pos = 2)

/-- R166: after the header, in strict mode only, NoAudio when M = 0 and then TooMuchAudio when `dur_half * M > 240`;
otherwise the padding step is next. C3_CBR, C3_CBR_PAD, C3_VBR and C3_VBR_PAD in S_C3H. -/
def Obligations.Code3StrictChecks : Prop :=
  ∀ (s : State) (v p : Bool) (m : BitVec 6), Working .sC3h s →
    let s1 : State := { s with
      regs := { s.regs with c3Info := ⟨m, p, v, true⟩ }
      dp := { s.dp with vbr := v, padf := p, m := m, pos := 2 } }
    (s.dp.strict = true → m = 0 → exec (c3Row v p m) s = .next (raise .noAudio s1))
    ∧ (s.dp.strict = true → m ≠ 0 → 240 < s.dp.dur.half * m.toNat →
      exec (c3Row v p m) s = .next (raise .tooMuchAudio s1))
    ∧ (s.dp.strict = false ∨ (m ≠ 0 ∧ s.dp.dur.half * m.toNat ≤ 240) →
      exec (c3Row v p m) s = .next { s1 with fsm := .sC3p, dp := { s1.dp with padHdr := 0, padData := 0 } })

/-- 42_code_splitter.md CODE3_PAD_REGION without padding (R167): the frames' region ends at `LEN - pad_data`, with
`pad_data` 0 as the header's step left it. -/
def Obligations.Code3RegionWithoutPadding : Prop :=
  ∀ (s : State) (v : Bool) (m : BitVec 6), Working .sC3p s → s.c3Is v false m = true → s.dp.padData = 0 →
    exec (c3Row v false m) s = .next { s with dp := { s.dp with regionEnd := s.dp.len }, fsm := .sC3f }

/-- R142: LengthOverflow before the read if no byte is left, and after any byte whose running total exceeds `LEN - 2`,
in strict and lenient mode alike; 0xFF contributes 254 and goes on, any other byte its value and ends the chain with
PADDING_RESULT. `DatapathInv` keeps the counters inside their registers. -/
def Obligations.PaddingChainByte : Prop :=
  ∀ (s : State) (b : Byte), DatapathInv s → Working .sC3p s → s.dp.padf = true → s.host = [] →
    let add := if b = 0xFF then 254 else b.toNat
    let total := s.dp.padHdr.toNat + 1 + (s.dp.padData.toNat + add)
    (s.dp.len.toNat ≤ s.dp.pos.toNat → step s = .next (raise .lengthOverflow s))
    ∧ (s.dp.pos.toNat < s.dp.len.toNat → Memory.read s.pktBuf s.dp.pos.toNat = some b →
        ∃ t, exec (if b = 0xFF then .padCont else .padTerm b) s = .next t ∧ step s = .next t
          ∧ t.dp.pos.toNat = s.dp.pos.toNat + 1
          ∧ t.dp.padHdr.toNat = s.dp.padHdr.toNat + 1
          ∧ t.dp.padData.toNat = s.dp.padData.toNat + add
          ∧ (s.dp.len.toNat - 2 < total → t.fsm = .sFin ∧ t.outcome = some .lengthOverflow ∧ t.regs = s.regs)
          ∧ (total ≤ s.dp.len.toNat - 2 → b = 0xFF → t.fsm = .sC3p ∧ t.regs = s.regs)
          ∧ (total ≤ s.dp.len.toNat - 2 → b ≠ 0xFF →
              t.fsm = .sC3f ∧ t.regs = (paddingResult { s with dp := t.dp }).regs))

/-- 41_length_decoder.md, PADDING_RESULT (R143): it writes PAD_INFO, PAD_DATA and PAD_TOTAL, at the bits the rule's
formulas give, and nothing else. -/
def Obligations.PaddingResultRegisters : Prop :=
  ∀ s : State, s.dp.padHdr.toNat + s.dp.padData.toNat ≤ s.dp.len.toNat →
    (paddingResult s).registerWord 0x18 = BitVec.ofNat 32 s.dp.padHdr.toNat ||| 1#32 <<< 31
    ∧ (paddingResult s).registerWord 0x1C
        = BitVec.ofNat 32 ((s.dp.len.toNat - s.dp.padData.toNat) * 2 ^ 16 + s.dp.padData.toNat)
    ∧ (paddingResult s).registerWord 0x20 = BitVec.ofNat 32 (s.dp.padHdr.toNat + s.dp.padData.toNat)
    ∧ paddingResult s = { s with regs := { s.regs with
        padInfo := (paddingResult s).regs.padInfo
        padData := (paddingResult s).regs.padData
        padTotal := (paddingResult s).regs.padTotal } }

/-- 42_code_splitter.md, Code 3 with M = 0 (R168): it goes straight to COMPLETE, whatever the remainder; no frame is
emitted, and NUM_FRAMES is 0. -/
def Obligations.Code3NoFramesCompletes : Prop :=
  ∀ (s : State) (v p : Bool), OpfInv s → Working .sC3f s → s.c3Is v p 0 = true →
    exec (c3Row v p 0) s = .next (complete s) ∧ s.regs.numFrames = 0

/-- 42_code_splitter.md, CODE3_CBR (R169): NonMultipleRemainder unless M divides `R = region_end - pos`; else M frames of
`R / M` bytes one after another, each with Emit's strict check; then complete. `DatapathInv` says where the cursor stands
at each frame. C3_CBR and C3_CBR_PAD in S_C3F. That an Emit presents the descriptor and moves `pos` and `fidx` before the
sink accepts it is the model's choice (log 11), and so is computing R at each frame from `pad_hdr` (log 24). -/
def Obligations.Code3CbrFrames : Prop :=
  ∀ (s : State) (p : Bool) (m : BitVec 6), DatapathInv s → Working .sC3f s → s.c3Is false p m = true → m ≠ 0 →
    let R := s.dp.regionEnd.toNat - (2 + s.dp.padHdr.toNat)
    let f := R / m.toNat
    (s.dp.fidx = 0 → R = s.dp.regionEnd.toNat - s.dp.pos.toNat)
    ∧ (s.dp.fidx = m → exec (c3Row false p m) s = .next (complete s) ∧ s.dp.pos = s.dp.regionEnd)
    ∧ (s.dp.fidx ≠ m → R % m.toNat ≠ 0 → exec (c3Row false p m) s = .next (raise .nonMultipleRemainder s))
    ∧ (s.dp.fidx ≠ m → R % m.toNat = 0 → s.dp.strict = true ∧ 1275 < f →
      exec (c3Row false p m) s = .next (raise .frameTooBig s))
    ∧ (s.dp.fidx ≠ m → R % m.toNat = 0 → s.dp.strict = false ∨ f ≤ 1275 →
      exec (c3Row false p m) s = .next { s with
        port := some ⟨s.dp.pos, word16 f⟩
        dp := { s.dp with pos := word16 (s.dp.pos.toNat + f), fidx := s.dp.fidx + 1 } })

/-- 42_code_splitter.md, CODE3_VBR_INTERLEAVED (R170): each length field but the last frame's is decoded in the window
`[pos, region_end)`, as `LengthFieldDecoded` says; PacketTooSmall if it is missing or cut short, or if frame i runs past
`region_end`, else the frame; the last frame is what is left of the region, with Emit's strict check; then complete. LEN1,
LEN2, C3_VBR and C3_VBR_PAD in S_C3F. That an Emit presents the descriptor and moves `pos` and `fidx` before the sink
accepts it is the model's choice (log 11). -/
def Obligations.Code3VbrInterleavedFrames : Prop :=
  ∀ (s : State) (p : Bool) (m : BitVec 6) (i : Instr) (v n : Nat),
    Working .sC3f s → s.params.layout = .interleaved → s.c3Is true p m = true → m ≠ 0 →
    i.wellFormed = true → lenRowValue i = some (v, n) →
    (s.dp.fidx.toNat + 1 < m.toNat → awaitedField s = some (.len, s.dp.pos.toNat, s.dp.regionEnd.toNat))
    ∧ (s.dp.fidx.toNat + 1 < m.toNat → s.host = [] → s.dp.regionEnd.toNat ≤ s.dp.pos.toNat
          ∨ (s.dp.regionEnd.toNat = s.dp.pos.toNat + 1
              ∧ ∃ b0, Memory.read s.pktBuf s.dp.pos.toNat = some b0 ∧ 252 ≤ b0.toNat) →
        step s = .next (raise .packetTooSmall s))
    ∧ (s.dp.fidx.toNat + 1 < m.toNat → s.dp.regionEnd.toNat < s.dp.pos.toNat + n + v →
      exec i s = .next (raise .packetTooSmall (withPos (s.dp.pos.toNat + n) s)))
    ∧ (s.dp.fidx.toNat + 1 < m.toNat → s.dp.pos.toNat + n + v ≤ s.dp.regionEnd.toNat →
      exec i s = .next { s with
        port := some ⟨word16 (s.dp.pos.toNat + n), word16 v⟩
        dp := { s.dp with pos := word16 (s.dp.pos.toNat + n + v), fidx := s.dp.fidx + 1 } })
    ∧ (s.dp.fidx.toNat + 1 = m.toNat →
      s.dp.strict = true ∧ 1275 < s.dp.regionEnd.toNat - s.dp.pos.toNat →
      exec (c3Row true p m) s = .next (raise .frameTooBig s))
    ∧ (s.dp.fidx.toNat + 1 = m.toNat →
      s.dp.strict = false ∨ s.dp.regionEnd.toNat - s.dp.pos.toNat ≤ 1275 →
      exec (c3Row true p m) s = .next { s with
        port := some ⟨s.dp.pos, word16 (s.dp.regionEnd.toNat - s.dp.pos.toNat)⟩
        dp := { s.dp with fidx := s.dp.fidx + 1 } })
    ∧ (s.dp.fidx = m → exec (c3Row true p m) s = .next (complete s))

/-- 42_code_splitter.md, CODE3_VBR_GROUPED (R171): M-1 lengths are decoded in the window `[pos, region_end)`, as
`LengthFieldDecoded` says, and summed first; PacketTooSmall if one is missing or cut short, or if their sum runs past
`region_end`, before any frame; then the explicit frames in order, then the rest, with Emit's strict check; then complete.
LEN1, LEN2, C3_VBR and C3_VBR_PAD in S_C3F. That an Emit presents the descriptor and moves `pos` and `fidx` before the
sink accepts it is the model's choice (log 11); the lengths read so far are held as a list (log 21). -/
def Obligations.Code3VbrGroupedFrames : Prop :=
  ∀ (s : State) (p : Bool) (m : BitVec 6) (i : Instr) (v n : Nat),
    DatapathInv s → Working .sC3f s → s.params.layout = .grouped → s.c3Is true p m = true → m ≠ 0 →
    i.wellFormed = true → lenRowValue i = some (v, n) →
    (s.dp.lens.length + 1 < m.toNat → awaitedField s = some (.len, s.dp.pos.toNat, s.dp.regionEnd.toNat))
    ∧ (s.dp.lens.length + 1 < m.toNat → s.host = [] → s.dp.regionEnd.toNat ≤ s.dp.pos.toNat
          ∨ (s.dp.regionEnd.toNat = s.dp.pos.toNat + 1
              ∧ ∃ b0, Memory.read s.pktBuf s.dp.pos.toNat = some b0 ∧ 252 ≤ b0.toNat) →
        step s = .next (raise .packetTooSmall s))
    ∧ (s.dp.lens.length + 1 < m.toNat →
      exec i s = .next { s with dp := { s.dp with
        pos := word16 (s.dp.pos.toNat + n)
        lens := s.dp.lens ++ [BitVec.ofNat 11 v]
        lsum := word18 (s.dp.lsum.toNat + v) } })
    ∧ (s.dp.lens.length + 1 = m.toNat →
      (s.dp.fidx = 0 → s.dp.regionEnd.toNat < s.dp.pos.toNat + (s.dp.lens.map BitVec.toNat).sum →
        exec (c3Row true p m) s = .next (raise .packetTooSmall s))
      ∧ (s.dp.fidx ≠ 0 ∨ s.dp.pos.toNat + (s.dp.lens.map BitVec.toNat).sum ≤ s.dp.regionEnd.toNat →
        (∀ l, s.dp.lens[s.dp.fidx.toNat]? = some l →
          exec (c3Row true p m) s = .next { s with
            port := some ⟨s.dp.pos, word16 l.toNat⟩
            dp := { s.dp with pos := word16 (s.dp.pos.toNat + l.toNat), fidx := s.dp.fidx + 1 } })
        ∧ (s.dp.fidx.toNat + 1 = m.toNat →
          s.dp.strict = true ∧ 1275 < s.dp.regionEnd.toNat - s.dp.pos.toNat →
          exec (c3Row true p m) s = .next (raise .frameTooBig s))
        ∧ (s.dp.fidx.toNat + 1 = m.toNat →
          s.dp.strict = false ∨ s.dp.regionEnd.toNat - s.dp.pos.toNat ≤ 1275 →
          exec (c3Row true p m) s = .next { s with
            port := some ⟨s.dp.pos, word16 (s.dp.regionEnd.toNat - s.dp.pos.toNat)⟩
            dp := { s.dp with fidx := s.dp.fidx + 1 } })
        ∧ (s.dp.fidx = m → exec (c3Row true p m) s = .next (complete s))))

/-- R229: `finish` is one atomic step in S_FIN: BUSY 0, DONE 1, ERR and ERR_CODE from the outcome by R250's codes,
IDLE; the result registers, SINK and everything else keep what they hold. -/
def Obligations.FinishReportsTheOutcome : Prop :=
  ∀ s : State, Working .sFin s → s.host = [] →
    ∃ t, step s = .next t ∧ t = { s with fsm := .idle, regs := { s.regs with status := t.regs.status } }
      ∧ s.busy = true ∧ t.busy = false ∧ t.regs.status.done = true ∧ t.irq = s.regs.ctrl.irqEn
      ∧ (s.outcome = none → t.regs.status.err = false ∧ t.regs.status.errCode = 0)
      ∧ ∀ e, s.outcome = some e → t.regs.status.err = true ∧ t.regs.status.errCode = (match e with
          | .noTOC => 1 | .frameTooBig => 2 | .nonOddLength => 3 | .packetTooSmall => 4 | .lengthOverflow => 5
          | .tooMuchAudio => 6 | .nonMultipleRemainder => 7 | .noAudio => 8)

/-! ### Host commands -/

/-- R225: a CTRL write takes STRICT from bit 1 and IRQ_EN from bit 2 of the word, busy or not; with bit 0 = 0 it is
SET_CTRL, which changes nothing else but the host's queue; with bit 0 = 1 it is START, which takes the fields too
before it does what `StartBeginsAParse` says. -/
def Obligations.SetCtrlWritesItsFields : Prop :=
  ∀ (s : State) (d : Word), s.rst = false →
    decodeBus s.params.pktMax 0x00 32 d = .ok (if flagBit d 0 then .start d else .setCtrl d)
    ∧ exec (.setCtrl d) s = .next { s with
      regs := { s.regs with ctrl := ⟨flagBit d 1, flagBit d 2⟩ }, host := s.host.tail }
    ∧ ∀ t, exec (.start d) s = .next t → t.regs.ctrl = ⟨flagBit d 1, flagBit d 2⟩

/-- R222 and R223: an accepted START zeroes the datapath, latches LEN and STRICT (after its own CTRL fields), clears
the result registers and DONE, ERR, ERR_CODE, sets BUSY and goes to S_TOC. SINK, PKT_BUF and PKT_LEN are not touched.
With `PKT_LEN.LEN > PKT_MAX` it is refused. While the FSM is not IDLE, a START updates CTRL.STRICT and CTRL.IRQ_EN and
disturbs nothing else of the running parse. -/
def Obligations.StartBeginsAParse : Prop :=
  ∀ (s : State) (d : Word), s.rst = false →
    (s.fsm ≠ .idle → exec (.start d) s = .next { s with
      regs := { s.regs with ctrl := ⟨flagBit d 1, flagBit d 2⟩ }, host := s.host.tail })
    ∧ (s.fsm = .idle → s.params.pktMax < s.regs.pktLen.toNat →
      exec (.start d) s = .refused (.startLenTooLarge s.regs.pktLen.toNat))
    ∧ (s.fsm = .idle → s.regs.pktLen.toNat ≤ s.params.pktMax →
      ∃ t, exec (.start d) s = .next t ∧ t.busy = true ∧ t = { s with
        regs := {
          ctrl := ⟨flagBit d 1, flagBit d 2⟩
          status := ⟨false, false, 0⟩
          pktLen := s.regs.pktLen
          tocInfo := TocInfo.zero
          c3Info := C3Info.zero
          numFrames := 0
          padInfo := PadInfo.zero
          padData := PadData.zero
          padTotal := 0 }
        dp := { Datapath.zero with len := s.regs.pktLen, strict := flagBit d 1 }
        fsm := .sToc
        outcome := none
        port := none
        toc := 0
        tocPhase := .config
        host := s.host.tail })

/-- R226: ACK_DONE with bit 1 = 1 clears DONE; BUSY, ERR, ERR_CODE and everything else stay, and irq falls with DONE;
with bit 1 = 0 a STATUS write changes nothing. -/
def Obligations.AckDoneClearsDone : Prop :=
  ∀ (s : State) (d : Word), s.rst = false →
    (flagBit d 1 = true → ∃ t, exec (.ackDone d) s = .next t ∧ t.irq = false ∧ t = { s with
      regs := { s.regs with status := { s.regs.status with done := false } }, host := s.host.tail })
    ∧ (flagBit d 1 = false → exec (.ackDone d) s = .next { s with host := s.host.tail })

/-- R227: SET_LEN stores bits 15:0 in PKT_LEN, at any time, whatever `PKT_MAX` is; a running parse's latched LEN
stays. -/
def Obligations.SetLenStoresPktLen : Prop :=
  ∀ (s : State) (d : Word), s.rst = false →
    exec (.setLen d) s = .next { s with
      regs := { s.regs with pktLen := BitVec.ofNat 16 d.toNat }, host := s.host.tail }

/-- R228 with 20_memory.md's little-endian window (R65): in IDLE, WRITE_PKT writes its one or four cells, those inside
the buffer only; every other cell reads as before, and nothing else changes but the host's queue. While not IDLE it is
refused. -/
def Obligations.WritePktWritesItsCells : Prop :=
  ∀ (s : State) (i : BitVec 16), s.rst = false →
    (s.fsm = .idle → ∀ v : PktData, ∃ mem, exec (.writePkt i v) s = .next { s with pktBuf := mem, host := s.host.tail }
      ∧ (∀ b, v = .byte b → ∀ j, Memory.read mem j =
          if j = i.toNat ∧ j < s.params.pktMax then some b else Memory.read s.pktBuf j)
      ∧ (∀ w, v = .word w → ∀ j, Memory.read mem j =
          if i.toNat ≤ j ∧ j < i.toNat + 4 ∧ j < s.params.pktMax then some (w.extractLsb' (8 * (j - i.toNat)) 8)
          else Memory.read s.pktBuf j))
    ∧ (s.fsm ≠ .idle → ∀ v : PktData, exec (.writePkt i v) s = .refused (.pktWriteWhileBusy i.toNat))

/-! ### Other host actions -/

/-- R230: CTRL, STATUS and PKT_LEN read exactly at all times, and the result registers read exactly while BUSY = 0; a
result register read while BUSY = 1 returns a free value, of which nothing is claimed; no read changes anything but the
host's own bus data, queue and draw count. -/
def Obligations.RegisterReads : Prop :=
  ∀ (s : State) (delay offset : Nat) (rest : List HostEvent), s.rst = false →
    s.host = ⟨delay, .read (s.params.base + offset) 32⟩ :: rest → delay = 0 ∨ s.fsm = .idle →
    offset < 0x10000 → offset % 4 = 0 →
    ∃ t, step s = .next t
      ∧ t = { s with host := rest, busData := t.busData, draws := t.draws }
      ∧ (offset ≤ 0x08 ∨ 0x24 ≤ offset ∨ s.busy = false → t.busData = s.registerWord offset ∧ t.draws = s.draws)
      ∧ s.registerWord 0x00 = ((if s.regs.ctrl.irqEn then 1#32 else 0) <<< 2 |||
          (if s.regs.ctrl.strict then 1#32 else 0) <<< 1)

/-- 10_state.md, reserved offsets (R24) with 20_memory.md's map (R74): a reserved offset of the register space reads 0,
and a write to it, to a read-only register, or to STATUS with bit 1 = 0 (R89) has no effect. A window write at or past
`PKT_WIN_OFF + PKT_MAX` reaches no cell and has no effect, in IDLE and while BUSY; that it has none while BUSY, and that
the window's widths hold there, is the model's reading (log 26). That such an offset reads 0 is in `WindowReads`. -/
def Obligations.ReservedAndReadOnlyWrites : Prop :=
  ∀ (s : State) (delay offset width : Nat) (d : Word) (rest : List HostEvent), s.rst = false →
    s.host = ⟨delay, .write (s.params.base + offset) width d⟩ :: rest → delay = 0 ∨ s.fsm = .idle →
    (width = 32 → offset % 4 = 0 → 0x24 ≤ offset → offset < 0x10000 → s.registerWord offset = 0)
    ∧ (width = 32 → offset % 4 = 0 → offset < 0x10000 → 0x0C ≤ offset ∨ (offset = 0x04 ∧ flagBit d 1 = false) →
        step s = .next { s with host := rest })
    ∧ (width = 8 ∨ (width = 32 ∧ offset % 4 = 0) → 0x10000 + s.params.pktMax ≤ offset → offset < 0x20000 →
        step s = .next { s with host := rest })

/-- 20_memory.md, the packet window (R65): a host read of the window returns the written cells little-endian, 0 for
bytes past the buffer, and a free byte for an unwritten cell, of which nothing is claimed. -/
def Obligations.WindowReads : Prop :=
  ∀ (s : State) (delay i width : Nat) (rest : List HostEvent), s.rst = false →
    s.host = ⟨delay, .read (s.params.base + 0x10000 + i) width⟩ :: rest → delay = 0 ∨ s.fsm = .idle →
    i < 0x10000 → width = 8 ∨ (width = 32 ∧ i % 4 = 0) →
    ∃ t, step s = .next t
      ∧ t = { s with host := rest, busData := t.busData, draws := t.draws }
      ∧ ∀ k, 8 * k < width →
        (∀ b, i + k < s.params.pktMax → Memory.read s.pktBuf (i + k) = some b → t.busData.extractLsb' (8 * k) 8 = b)
        ∧ (s.params.pktMax ≤ i + k → t.busData.extractLsb' (8 * k) 8 = 0)

/-- 43_validity_fsm.md, refused accesses (R64, R65, R235): a register access that is not 32-bit on a 4-byte boundary,
and a window access that is neither 8-bit nor 32-bit on a 4-byte boundary, read or write, is refused. That the reserved
offsets, 0x24 to 0xFFFF and those past the buffer, follow these widths too is the model's choice (log 26). -/
def Obligations.OddAccessesAreRefused : Prop :=
  ∀ (s : State) (delay offset width : Nat) (d : Word) (a : HostAction) (rest : List HostEvent), s.rst = false →
    s.host = ⟨delay, a⟩ :: rest → delay = 0 ∨ s.fsm = .idle →
    a = .write (s.params.base + offset) width d ∨ a = .read (s.params.base + offset) width →
    (offset < 0x10000 → ¬ (width = 32 ∧ offset % 4 = 0) → step s = .refused (.registerAccess offset width))
    ∧ (0x10000 ≤ offset → offset < 0x20000 → ¬ (width = 8 ∨ (width = 32 ∧ offset % 4 = 0)) →
        step s = .refused (.windowAccess offset width))

/-- R232: CLEAR_SINK empties SINK in IDLE, and is refused otherwise. -/
def Obligations.ClearSink : Prop :=
  ∀ (s : State) (delay : Nat) (rest : List HostEvent), s.host = ⟨delay, .clearSink⟩ :: rest →
    (s.fsm = .idle → step s = .next { s with sink := [], host := rest })
    ∧ (s.fsm ≠ .idle → delay = 0 → step s = .refused .clearSinkWhileBusy)

/-- 10_state.md and 70_reset_and_hazards.md (R41, R281, R282): `rst` changing aborts a running parse: every register
at 0, IDLE, every packet cell unwritten, irq 0, nothing presented; SINK stays. That this holds while `rst` is still
asserted is the model's choice (log 14). -/
def Obligations.ResetEffect : Prop :=
  ∀ (s : State) (b : Bool) (rest : List HostEvent), s.host = ⟨0, .setRst b⟩ :: rest → b ≠ s.rst →
    ∃ t, step s = .next t ∧ t.rst = b ∧ t.regs = Regs.zero ∧ t.fsm = .idle ∧ t.irq = false ∧ t.port = none
      ∧ (∀ i, Memory.read t.pktBuf i = none) ∧ t.sink = s.sink ∧ t.params = s.params ∧ t.host = rest
      ∧ ∀ o, t.registerWord o = 0

/-- R280: while `rst` is asserted the block takes no step, and host accesses are ignored: only the host's queue moves,
and a read returns a word of which nothing is claimed (log 14). -/
def Obligations.HeldInReset : Prop :=
  ∀ s : State, s.rst = true →
    (BlockTurn s → step s = .next s.countDown ∧ s.countDown = { s with host := s.countDown.host })
    ∧ ∀ (delay offset width : Nat) (d : Word) (rest : List HostEvent),
        delay = 0 ∨ s.fsm = .idle → offset < 0x20000 →
        (s.host = ⟨delay, .write (s.params.base + offset) width d⟩ :: rest → step s = .next { s with host := rest })
        ∧ (s.host = ⟨delay, .read (s.params.base + offset) width⟩ :: rest →
            ∃ t, step s = .next t ∧ t = { s with host := rest, busData := t.busData, draws := t.draws })

/-- 10_state.md R41's values, right after reset. The values of the datapath, of SINK and of the model's own fields are
the model's (log 7, log 8, log 9) and are not claimed. -/
def Obligations.ResetValues : Prop :=
  (∀ o, State.reset.registerWord o = 0) ∧ State.reset.irq = false ∧ State.reset.fsm = .idle
    ∧ State.reset.busy = false ∧ ∀ i, Memory.read State.reset.pktBuf i = none

/-- R34: irq is the level DONE AND IRQ_EN, 0 at reset: it is not stored, so a SET_CTRL of IRQ_EN moves it at once. -/
def Obligations.IrqIsDoneAndEnabled : Prop :=
  (∀ s : State, (s.irq = true ↔ s.regs.status.done = true ∧ s.regs.ctrl.irqEn = true)
    ∧ ∀ d : Word, s.rst = false → ∃ t, exec (.setCtrl d) s = .next t ∧
        t.irq = (s.regs.status.done && flagBit d 2))
  ∧ State.reset.irq = false

/-- 30_encoding.md, WAIT and WAIT_IRQ (R92): WAIT is over when STATUS.DONE = 1, and its last poll returns STATUS;
WAIT_IRQ is over when irq = 1. Until then the block goes on by itself. Both are entries of the host's queue (log 23).
While `rst` is asserted the model holds WAIT, which is its choice and not claimed here (log 14, log 23). -/
def Obligations.HostWaits : Prop :=
  ∀ (s : State) (delay : Nat) (rest : List HostEvent), s.rst = false →
    (s.host = ⟨delay, .waitDone⟩ :: rest →
      (s.regs.status.done = true → step s = .next { s with host := rest, busData := s.registerWord 0x04 })
      ∧ (s.regs.status.done = false → step s = blockStep s.countDown))
    ∧ (s.host = ⟨delay, .waitIrq⟩ :: rest →
      (s.irq = true → step s = .next { s with host := rest })
      ∧ (s.irq = false → step s = blockStep s.countDown))

/-! ### Frames and invariants -/

/-- 42_code_splitter.md and 41_length_decoder.md, "Written": what a packet row leaves unchanged: every cell of the
packet buffer, SINK and its counters, CTRL, STATUS, PKT_LEN, the latched LEN and strict flag, the parameters, reset,
and the host's side. That a row leaves SINK, `nf` and NUM_FRAMES alone, though the rules' lists have the descriptors a
Code writes, is the model's choice: the sink's acceptance is a step of its own (log 11; `EmitChecksThenAppends`). -/
def Obligations.PacketRowFrame : Prop :=
  ∀ (i : Instr) (s t : State), isPacketRow i = true → exec i s = .next t →
    (∀ a, Memory.read t.pktBuf a = Memory.read s.pktBuf a)
      ∧ t.params = s.params ∧ t.sink = s.sink ∧ t.regs.numFrames = s.regs.numFrames ∧ t.dp.nf = s.dp.nf
      ∧ t.regs.ctrl = s.regs.ctrl ∧ t.regs.status = s.regs.status ∧ t.regs.pktLen = s.regs.pktLen
      ∧ t.dp.len = s.dp.len ∧ t.dp.strict = s.dp.strict
      ∧ t.rst = s.rst ∧ t.toc = s.toc ∧ t.sinkReady = s.sinkReady ∧ t.host = s.host ∧ t.busData = s.busData
      ∧ t.draws = s.draws

/-- 43_validity_fsm.md, section 2: what a host command leaves unchanged: the parameters, SINK, the sink's ready signal,
the bus data and the draws always; while a parse runs, also the datapath, the FSM state, the outcome, the port, the
packet buffer and every result register: the host cannot disturb a running parse. -/
def Obligations.HostCommandFrame : Prop :=
  ∀ (i : Instr) (s t : State), isPacketRow i = false → exec i s = .next t →
    (t.params = s.params ∧ t.sink = s.sink ∧ t.rst = s.rst ∧ t.sinkReady = s.sinkReady ∧ t.busData = s.busData
      ∧ t.draws = s.draws ∧ t.host = s.host.tail)
    ∧ (s.busy = true →
        t.dp = s.dp ∧ t.fsm = s.fsm ∧ t.outcome = s.outcome ∧ t.port = s.port ∧ t.pktBuf = s.pktBuf ∧ t.toc = s.toc
          ∧ t.tocPhase = s.tocPhase ∧ t.regs.tocInfo = s.regs.tocInfo ∧ t.regs.c3Info = s.regs.c3Info
          ∧ t.regs.numFrames = s.regs.numFrames ∧ t.regs.padInfo = s.regs.padInfo
          ∧ t.regs.padData = s.regs.padData ∧ t.regs.padTotal = s.regs.padTotal)

/-- 10_state.md, SINK (R36), and R68: a step appends at most one whole descriptor at the end of SINK, the one on the
port; only the host's CLEAR_SINK in IDLE removes entries. That the append is a step of its own, after the descriptor
was presented, is the model's choice (log 11). -/
def Obligations.SinkOnlyAppended : Prop :=
  ∀ s t : State, step s = .next t →
    t.sink = s.sink
      ∨ (∃ d, s.port = some d ∧ s.sinkReady = true ∧ t.sink = s.sink ++ [d])
      ∨ (∃ delay rest, s.host = ⟨delay, .clearSink⟩ :: rest ∧ s.fsm = .idle ∧ t.sink = [])

/-- 20_memory.md (R67) and 10_state.md (R35): a step changes the packet buffer only when it takes the host's window
write or a change of `rst`; the block never writes it. -/
def Obligations.BlockNeverWritesPacket : Prop :=
  ∀ s t : State, step s = .next t → t.pktBuf ≠ s.pktBuf →
    (∃ delay addr width d rest, s.host = ⟨delay, .write addr width d⟩ :: rest ∧ s.fsm = .idle
        ∧ s.params.base + 0x10000 ≤ addr)
      ∨ ∃ delay b rest, s.host = ⟨delay, .setRst b⟩ :: rest

/-- 20_memory.md, reads (R67; U16): what the block does depends on no packet cell at or past the latched LEN: two
states that differ only in such cells do the same, and differ only in them afterwards. -/
def Obligations.CellsPastLenAreNotRead : Prop :=
  ∀ (s : State) (mem : Memory), s.dp.regionEnd.toNat ≤ s.dp.len.toNat → s.host = [] →
    (∀ i, i < s.dp.len.toNat → Memory.read mem i = Memory.read s.pktBuf i) →
    (∀ t, step s = .next t → step { s with pktBuf := mem } = .next { t with pktBuf := mem })
    ∧ (∀ f, step s = .fault f → step { s with pktBuf := mem } = .fault f)
    ∧ (∀ r, step s = .refused r → step { s with pktBuf := mem } = .refused r)

/-- The invariant holds right after reset. Its clauses on the datapath, the port and the frame counters hold there
because the model chose the datapath 0 (log 7) and nothing presented (log 9) where the spec leaves both open. -/
def Obligations.ResetMeetsInvariant : Prop := OpfInv State.reset

/-- Every step keeps the packet buffer canonical and inside `PKT_MAX`, and the parameters as they are
(10_state.md R35, 00_scope.md R6). -/
def Obligations.StepKeepsMemory : Prop :=
  ∀ s t : State, MemoryInv s → step s = .next t → MemoryInv t ∧ t.params = s.params

/-- 10_state.md's "BUSY = 1 and DONE = 1 never hold together", with ERR_CODE 0 when ERR = 0 and no code past 8: every
step keeps it (R26, R250). -/
def Obligations.StepKeepsStatus : Prop :=
  ∀ s t : State, StatusInv s → step s = .next t → StatusInv t

/-- 20_memory.md's widths (R66), 10_state.md's cursor (R22) and NUM_FRAMES (R30): every step keeps the whole
invariant: the latched length at most `PKT_MAX`, the cursor and the region at most LEN, the sums exact in their
registers, NUM_FRAMES equal to the descriptors appended. Its clauses on the port and the frame index follow the model's
two-step Emit (log 11). -/
def Obligations.StepKeepsInvariant : Prop :=
  ∀ s t : State, OpfInv s → step s = .next t → OpfInv t

/-- No step the block takes is refused, and no FSM state is stuck for want of a row: from a state of the invariant, when
it is the block's turn, a step answers a next state or the fault of an unwritten packet byte (43_validity_fsm.md R221,
60_exceptions.md R254). -/
def Obligations.BlockNeverRefused : Prop :=
  ∀ s : State, OpfInv s → BlockTurn s →
    (∃ t, step s = .next t) ∨ ∃ i, i < s.dp.len.toNat ∧ step s = .fault (.unwrittenPacketByte i)

/-! ### Whole parses -/

/-- 43_validity_fsm.md's termination (R221): an undisturbed parse reaches IDLE with DONE after finitely many steps, or
stops at the read of an unwritten packet byte. -/
def Obligations.EveryParseTerminates : Prop :=
  ∀ s : State, OpfInv s → Undisturbed s → s.busy = true →
    ∃ k, (∃ t, SafeRun k s t ∧ t.fsm = .idle ∧ t.regs.status.done = true)
      ∨ ∃ i, Host.Core.run Sys2Proof.core k s = .fault (.unwrittenPacketByte i)

/-- 43_validity_fsm.md, agreement (the spec's own inference in R233): the FSM agrees with PARSE: from an accepted
START of a loaded packet, undisturbed, the run reaches IDLE with exactly the descriptors, result registers and STATUS
that the one total function `parse` gives for the packet, the strict flag and the layout. -/
def Obligations.FsmAgreesWithParse : Prop :=
  ∀ (s : State) (pkt : List Byte), s.fsm = .idle → PacketLoaded pkt s → Undisturbed s →
    ∃ k t, SafeRun k (beginParse s) t
      ∧ HoldsResult (parse s.params.layout s.regs.ctrl.strict pkt) s.sink t

/-- 42_code_splitter.md, round trip (the spec's own inference in R175): in a successful parse that is not Code 3 with
M = 0, the descriptors rise and stay inside `[1, region_end]`, and the packet length is the TOC byte, the header byte,
the chain bytes, the length-field bytes, the frames and the padding data. -/
def Obligations.RoundTripOfLengths : Prop :=
  ∀ (layout : VbrLayout) (strict : Bool) (pkt : List Byte), pkt.length ≤ 65535 → validPacket layout strict pkt →
    let r := parse layout strict pkt
    (r.c3Info.valid = true → r.c3Info.m ≠ 0) →
    let regionEnd := pkt.length - r.padData.len.toNat
    let c3 := if r.c3Info.valid then 1 else 0
    let fieldBytes := if r.tocInfo.code = 2 ∨ r.c3Info.vbr = true
      then (r.frames.dropLast.map fun d => if d.len.toNat ≤ 251 then 1 else 2).sum else 0
    pkt.length = 1 + c3 + r.padInfo.hdrLen.toNat + fieldBytes + (r.frames.map fun d => d.len.toNat).sum
        + r.padData.len.toNat
    ∧ (∀ d ∈ r.frames, 1 ≤ d.off.toNat ∧ d.off.toNat + d.len.toNat ≤ regionEnd)
    ∧ r.frames.Pairwise fun d e => d.off.toNat + d.len.toNat ≤ e.off.toNat

/-- 42_code_splitter.md, strict against lenient (the spec's own inference in R177): strict mode rejects whatever
lenient mode rejects, and what it accepts has the same outcome in lenient mode. -/
def Obligations.StrictIsAtLeastAsRestrictive : Prop :=
  ∀ (layout : VbrLayout) (pkt : List Byte),
    (¬ validPacket layout false pkt → ¬ validPacket layout true pkt)
      ∧ (validPacket layout true pkt → parse layout false pkt = parse layout true pkt)

/-- 42_code_splitter.md, grouped layout (R171): the two VBR layouts give the same result for M = 1 and M = 2, whatever
the packet. -/
def Obligations.LayoutsAgreeUpToTwoFrames : Prop :=
  ∀ (strict : Bool) (pkt : List Byte), (parse .interleaved strict pkt).c3Info.m.toNat ≤ 2 →
    parse .interleaved strict pkt = parse .grouped strict pkt
end

