-- ==== Sys2Proof/Laws/Memory.lean ====
section
/-! SUPPORT. Sys2Proof/Laws/Memory.lean: the laws of the packet buffer: a read after a write, the canonical form, and
that cells stay inside the buffer. -/

namespace Sys2Proof.Machine

/-- A read after a write to the same cell gives the value written. -/
@[simp] theorem Memory.read_write_same (mem : Memory) (i : Nat) (v : Byte) :
    Memory.read (Memory.write mem i v) i = some v := by
  induction mem with
  | nil => simp [Memory.write, Memory.read]
  | cons c rest ih =>
    obtain ⟨a, b⟩ := c
    by_cases h1 : i < a
    · simp [Memory.write, h1, Memory.read]
    · by_cases h2 : i = a
      · simp [Memory.write, h2, Memory.read]
      · simp [Memory.write, h1, h2, Memory.read, Ne.symm h2, ih]

/-- A write leaves every other cell alone. -/
theorem Memory.read_write_other (mem : Memory) {i j : Nat} (v : Byte) (h : j ≠ i) :
    Memory.read (Memory.write mem i v) j = Memory.read mem j := by
  induction mem with
  | nil => simp [Memory.write, Memory.read, Ne.symm h]
  | cons c rest ih =>
    obtain ⟨a, b⟩ := c
    by_cases h1 : i < a
    · simp [Memory.write, h1, Memory.read, Ne.symm h]
    · by_cases h2 : i = a
      · subst h2; simp [Memory.write, Memory.read, Ne.symm h]
      · simp [Memory.write, h1, h2, Memory.read, ih]

/-- A write keeps a lower bound of the indices that it respects itself. -/
theorem Memory.above_write {mem : Memory} {i a : Nat} (v : Byte) (h : a < i) (hm : Memory.above a mem = true) :
    Memory.above a (Memory.write mem i v) = true := by
  induction mem with
  | nil => simp [Memory.write, Memory.above, h]
  | cons c rest ih =>
    obtain ⟨x, b⟩ := c
    simp only [Memory.above, List.all_cons, Bool.and_eq_true, decide_eq_true_eq] at hm
    by_cases h1 : i < x
    · simp [Memory.write, h1, Memory.above, h, hm.1]; simpa using hm.2
    · by_cases h2 : i = x
      · simp [Memory.write, h2, Memory.above, hm.1]; simpa using hm.2
      · have := ih hm.2
        simp only [Memory.above] at this
        simp [Memory.write, h1, h2, Memory.above, hm.1]; simpa using this

/-- A higher bound is a bound. -/
theorem Memory.above_mono {mem : Memory} {a i : Nat} (h : i < a) (hm : Memory.above a mem = true) :
    Memory.above i mem = true := by
  simp only [Memory.above, List.all_eq_true, decide_eq_true_eq] at hm ⊢
  exact fun c hc => lt_trans h (hm c hc)

/-- A write keeps the canonical form. -/
theorem Memory.wf_write {mem : Memory} (i : Nat) (v : Byte) (h : Memory.wf mem = true) :
    Memory.wf (Memory.write mem i v) = true := by
  induction mem with
  | nil => simp [Memory.write, Memory.wf, Memory.above]
  | cons c rest ih =>
    obtain ⟨a, b⟩ := c
    simp only [Memory.wf, Bool.and_eq_true] at h
    by_cases h1 : i < a
    · have h3 : Memory.above i ((a, b) :: rest) = true := by
        have := Memory.above_mono h1 h.1
        simp only [Memory.above] at this
        simp only [Memory.above, List.all_cons, h1, decide_true, this, Bool.and_self]
      simp [Memory.write, h1, Memory.wf, h3, h.1, h.2]
    · by_cases h2 : i = a
      · subst h2; simp [Memory.write, Memory.wf, h.1, h.2]
      · have h3 : a < i := by omega
        simp [Memory.write, h1, h2, Memory.wf, Memory.above_write v h3 h.1, ih h.2]

/-- A write inside the buffer keeps every cell inside it. -/
theorem Memory.inside_write {pktMax : Nat} {mem : Memory} {i : Nat} (v : Byte) (hi : i < pktMax)
    (h : Memory.inside pktMax mem = true) : Memory.inside pktMax (Memory.write mem i v) = true := by
  induction mem with
  | nil => simp [Memory.write, Memory.inside, hi]
  | cons c rest ih =>
    obtain ⟨a, b⟩ := c
    simp only [Memory.inside, List.all_cons, Bool.and_eq_true, decide_eq_true_eq] at h
    by_cases h1 : i < a
    · simp [Memory.write, h1, Memory.inside, hi, h.1]; simpa using h.2
    · by_cases h2 : i = a
      · simp [Memory.write, h2, Memory.inside, h.1]; simpa using h.2
      · have := ih h.2
        simp only [Memory.inside] at this
        simp [Memory.write, h1, h2, Memory.inside, h.1]; simpa using this

/-- A bounded write keeps the canonical form. -/
theorem Memory.wf_writeInside {mem : Memory} (pktMax i : Nat) (v : Byte) (h : Memory.wf mem = true) :
    Memory.wf (Memory.writeInside pktMax mem i v) = true := by
  unfold Memory.writeInside; split
  · exact Memory.wf_write i v h
  · exact h

/-- A bounded write keeps every cell inside the buffer. -/
theorem Memory.inside_writeInside {pktMax : Nat} {mem : Memory} (i : Nat) (v : Byte)
    (h : Memory.inside pktMax mem = true) : Memory.inside pktMax (Memory.writeInside pktMax mem i v) = true := by
  unfold Memory.writeInside; split
  · exact Memory.inside_write v ‹_› h
  · exact h

/-- What a bounded write leaves in a cell. -/
theorem Memory.read_writeInside (mem : Memory) (pktMax i j : Nat) (v : Byte) :
    Memory.read (Memory.writeInside pktMax mem i v) j
      = if j = i ∧ i < pktMax then some v else Memory.read mem j := by
  unfold Memory.writeInside
  by_cases h1 : i < pktMax
  · by_cases h2 : j = i
    · subst h2; simp [h1]
    · simp [h1, h2, Memory.read_write_other mem v h2]
  · simp [h1]

/-- A window write keeps the canonical form (R228). -/
theorem Memory.wf_writePkt {mem : Memory} (pktMax i : Nat) (d : PktData) (h : Memory.wf mem = true) :
    Memory.wf (Memory.writePkt pktMax mem i d) = true := by
  cases d with
  | byte b => exact Memory.wf_writeInside _ _ _ h
  | word w =>
    exact Memory.wf_writeInside _ _ _ (Memory.wf_writeInside _ _ _ (Memory.wf_writeInside _ _ _
      (Memory.wf_writeInside _ _ _ h)))

/-- A window write keeps every cell inside the buffer (R65, R228). -/
theorem Memory.inside_writePkt {pktMax : Nat} {mem : Memory} (i : Nat) (d : PktData)
    (h : Memory.inside pktMax mem = true) : Memory.inside pktMax (Memory.writePkt pktMax mem i d) = true := by
  cases d with
  | byte b => exact Memory.inside_writeInside _ _ h
  | word w =>
    exact Memory.inside_writeInside _ _ (Memory.inside_writeInside _ _ (Memory.inside_writeInside _ _
      (Memory.inside_writeInside _ _ h)))

/-- Memory right after reset is canonical. -/
theorem reset_memory_wf : Memory.wf State.reset.pktBuf = true := rfl

end Sys2Proof.Machine
end

