-- ==== Sys2Proof/Laws/State.lean ====
section
/-! SUPPORT. Sys2Proof/Laws/State.lean: what each update of the state leaves in each field, one lemma per field per
update, so that no proof unfolds a record update. -/

namespace Sys2Proof.Machine

variable (s : State)

/-! ### retire -/

@[simp] theorem retire_params : (s.retire).params = s.params := rfl
@[simp] theorem retire_regs : (s.retire).regs = s.regs := rfl
@[simp] theorem retire_pktBuf : (s.retire).pktBuf = s.pktBuf := rfl
@[simp] theorem retire_sink : (s.retire).sink = s.sink := rfl
@[simp] theorem retire_dp : (s.retire).dp = s.dp := rfl
@[simp] theorem retire_fsm : (s.retire).fsm = s.fsm := rfl
@[simp] theorem retire_outcome : (s.retire).outcome = s.outcome := rfl
@[simp] theorem retire_port : (s.retire).port = s.port := rfl
@[simp] theorem retire_rst : (s.retire).rst = s.rst := rfl
@[simp] theorem retire_toc : (s.retire).toc = s.toc := rfl
@[simp] theorem retire_tocPhase : (s.retire).tocPhase = s.tocPhase := rfl
@[simp] theorem retire_sinkReady : (s.retire).sinkReady = s.sinkReady := rfl
@[simp] theorem retire_host : (s.retire).host = s.host.tail := rfl
@[simp] theorem retire_busData : (s.retire).busData = s.busData := rfl
@[simp] theorem retire_draws : (s.retire).draws = s.draws := rfl

/-! ### raise -/

@[simp] theorem raise_params (e : ParseError) : (raise e s).params = s.params := rfl
@[simp] theorem raise_regs (e : ParseError) : (raise e s).regs = s.regs := rfl
@[simp] theorem raise_pktBuf (e : ParseError) : (raise e s).pktBuf = s.pktBuf := rfl
@[simp] theorem raise_sink (e : ParseError) : (raise e s).sink = s.sink := rfl
@[simp] theorem raise_dp (e : ParseError) : (raise e s).dp = s.dp := rfl
@[simp] theorem raise_fsm (e : ParseError) : (raise e s).fsm = .sFin := rfl
@[simp] theorem raise_outcome (e : ParseError) : (raise e s).outcome = some e := rfl
@[simp] theorem raise_port (e : ParseError) : (raise e s).port = s.port := rfl
@[simp] theorem raise_rst (e : ParseError) : (raise e s).rst = s.rst := rfl
@[simp] theorem raise_toc (e : ParseError) : (raise e s).toc = s.toc := rfl
@[simp] theorem raise_tocPhase (e : ParseError) : (raise e s).tocPhase = s.tocPhase := rfl
@[simp] theorem raise_sinkReady (e : ParseError) : (raise e s).sinkReady = s.sinkReady := rfl
@[simp] theorem raise_host (e : ParseError) : (raise e s).host = s.host := rfl
@[simp] theorem raise_busData (e : ParseError) : (raise e s).busData = s.busData := rfl
@[simp] theorem raise_draws (e : ParseError) : (raise e s).draws = s.draws := rfl

/-! ### complete -/

@[simp] theorem complete_params : (complete s).params = s.params := rfl
@[simp] theorem complete_regs : (complete s).regs = s.regs := rfl
@[simp] theorem complete_pktBuf : (complete s).pktBuf = s.pktBuf := rfl
@[simp] theorem complete_sink : (complete s).sink = s.sink := rfl
@[simp] theorem complete_dp : (complete s).dp = s.dp := rfl
@[simp] theorem complete_fsm : (complete s).fsm = .sFin := rfl
@[simp] theorem complete_outcome : (complete s).outcome = none := rfl
@[simp] theorem complete_port : (complete s).port = s.port := rfl
@[simp] theorem complete_rst : (complete s).rst = s.rst := rfl
@[simp] theorem complete_toc : (complete s).toc = s.toc := rfl
@[simp] theorem complete_tocPhase : (complete s).tocPhase = s.tocPhase := rfl
@[simp] theorem complete_sinkReady : (complete s).sinkReady = s.sinkReady := rfl
@[simp] theorem complete_host : (complete s).host = s.host := rfl
@[simp] theorem complete_busData : (complete s).busData = s.busData := rfl
@[simp] theorem complete_draws : (complete s).draws = s.draws := rfl

/-! ### finish -/

@[simp] theorem finish_params : (finish s).params = s.params := rfl
@[simp] theorem finish_regs : (finish s).regs = { s.regs with status := Status.ofOutcome s.outcome } := rfl
@[simp] theorem finish_pktBuf : (finish s).pktBuf = s.pktBuf := rfl
@[simp] theorem finish_sink : (finish s).sink = s.sink := rfl
@[simp] theorem finish_dp : (finish s).dp = s.dp := rfl
@[simp] theorem finish_fsm : (finish s).fsm = .idle := rfl
@[simp] theorem finish_outcome : (finish s).outcome = s.outcome := rfl
@[simp] theorem finish_port : (finish s).port = s.port := rfl
@[simp] theorem finish_rst : (finish s).rst = s.rst := rfl
@[simp] theorem finish_toc : (finish s).toc = s.toc := rfl
@[simp] theorem finish_tocPhase : (finish s).tocPhase = s.tocPhase := rfl
@[simp] theorem finish_sinkReady : (finish s).sinkReady = s.sinkReady := rfl
@[simp] theorem finish_host : (finish s).host = s.host := rfl
@[simp] theorem finish_busData : (finish s).busData = s.busData := rfl
@[simp] theorem finish_draws : (finish s).draws = s.draws := rfl

/-! ### beginParse -/

@[simp] theorem beginParse_params : (beginParse s).params = s.params := rfl
@[simp] theorem beginParse_regs : (beginParse s).regs = ⟨s.regs.ctrl, ⟨false, false, 0⟩, s.regs.pktLen, TocInfo.zero, C3Info.zero, 0, PadInfo.zero, PadData.zero, 0⟩ := rfl
@[simp] theorem beginParse_pktBuf : (beginParse s).pktBuf = s.pktBuf := rfl
@[simp] theorem beginParse_sink : (beginParse s).sink = s.sink := rfl
@[simp] theorem beginParse_dp : (beginParse s).dp = { Datapath.zero with len := s.regs.pktLen, strict := s.regs.ctrl.strict } := rfl
@[simp] theorem beginParse_fsm : (beginParse s).fsm = .sToc := rfl
@[simp] theorem beginParse_outcome : (beginParse s).outcome = none := rfl
@[simp] theorem beginParse_port : (beginParse s).port = none := rfl
@[simp] theorem beginParse_rst : (beginParse s).rst = s.rst := rfl
@[simp] theorem beginParse_toc : (beginParse s).toc = 0 := rfl
@[simp] theorem beginParse_tocPhase : (beginParse s).tocPhase = .config := rfl
@[simp] theorem beginParse_sinkReady : (beginParse s).sinkReady = s.sinkReady := rfl
@[simp] theorem beginParse_host : (beginParse s).host = s.host := rfl
@[simp] theorem beginParse_busData : (beginParse s).busData = s.busData := rfl
@[simp] theorem beginParse_draws : (beginParse s).draws = s.draws := rfl

/-! ### applyReset -/

@[simp] theorem applyReset_params : (applyReset s).params = s.params := rfl
@[simp] theorem applyReset_regs : (applyReset s).regs = Regs.zero := rfl
@[simp] theorem applyReset_pktBuf : (applyReset s).pktBuf = [] := rfl
@[simp] theorem applyReset_sink : (applyReset s).sink = s.sink := rfl
@[simp] theorem applyReset_dp : (applyReset s).dp = Datapath.zero := rfl
@[simp] theorem applyReset_fsm : (applyReset s).fsm = .idle := rfl
@[simp] theorem applyReset_outcome : (applyReset s).outcome = none := rfl
@[simp] theorem applyReset_port : (applyReset s).port = none := rfl
@[simp] theorem applyReset_rst : (applyReset s).rst = s.rst := rfl
@[simp] theorem applyReset_toc : (applyReset s).toc = 0 := rfl
@[simp] theorem applyReset_tocPhase : (applyReset s).tocPhase = .config := rfl
@[simp] theorem applyReset_sinkReady : (applyReset s).sinkReady = s.sinkReady := rfl
@[simp] theorem applyReset_host : (applyReset s).host = s.host := rfl
@[simp] theorem applyReset_busData : (applyReset s).busData = s.busData := rfl
@[simp] theorem applyReset_draws : (applyReset s).draws = s.draws := rfl

/-! ### dispatchCode -/

@[simp] theorem dispatchCode_params (c : BitVec 2) (f : Fsm) : (dispatchCode c f s).params = s.params := rfl
@[simp] theorem dispatchCode_regs (c : BitVec 2) (f : Fsm) : (dispatchCode c f s).regs = { s.regs with tocInfo := { s.regs.tocInfo with code := c, valid := true } } := rfl
@[simp] theorem dispatchCode_pktBuf (c : BitVec 2) (f : Fsm) : (dispatchCode c f s).pktBuf = s.pktBuf := rfl
@[simp] theorem dispatchCode_sink (c : BitVec 2) (f : Fsm) : (dispatchCode c f s).sink = s.sink := rfl
@[simp] theorem dispatchCode_dp (c : BitVec 2) (f : Fsm) : (dispatchCode c f s).dp = { s.dp with code := c, pos := 1 } := rfl
@[simp] theorem dispatchCode_fsm (c : BitVec 2) (f : Fsm) : (dispatchCode c f s).fsm = f := rfl
@[simp] theorem dispatchCode_outcome (c : BitVec 2) (f : Fsm) : (dispatchCode c f s).outcome = s.outcome := rfl
@[simp] theorem dispatchCode_port (c : BitVec 2) (f : Fsm) : (dispatchCode c f s).port = s.port := rfl
@[simp] theorem dispatchCode_rst (c : BitVec 2) (f : Fsm) : (dispatchCode c f s).rst = s.rst := rfl
@[simp] theorem dispatchCode_toc (c : BitVec 2) (f : Fsm) : (dispatchCode c f s).toc = s.toc := rfl
@[simp] theorem dispatchCode_tocPhase (c : BitVec 2) (f : Fsm) : (dispatchCode c f s).tocPhase = s.tocPhase := rfl
@[simp] theorem dispatchCode_sinkReady (c : BitVec 2) (f : Fsm) : (dispatchCode c f s).sinkReady = s.sinkReady := rfl
@[simp] theorem dispatchCode_host (c : BitVec 2) (f : Fsm) : (dispatchCode c f s).host = s.host := rfl
@[simp] theorem dispatchCode_busData (c : BitVec 2) (f : Fsm) : (dispatchCode c f s).busData = s.busData := rfl
@[simp] theorem dispatchCode_draws (c : BitVec 2) (f : Fsm) : (dispatchCode c f s).draws = s.draws := rfl

/-! ### fixRegion -/

@[simp] theorem fixRegion_params : (fixRegion s).params = s.params := rfl
@[simp] theorem fixRegion_regs : (fixRegion s).regs = s.regs := rfl
@[simp] theorem fixRegion_pktBuf : (fixRegion s).pktBuf = s.pktBuf := rfl
@[simp] theorem fixRegion_sink : (fixRegion s).sink = s.sink := rfl
@[simp] theorem fixRegion_dp : (fixRegion s).dp = { s.dp with regionEnd := word16 (s.dp.len.toNat - s.dp.padData.toNat) } := rfl
@[simp] theorem fixRegion_fsm : (fixRegion s).fsm = .sC3f := rfl
@[simp] theorem fixRegion_outcome : (fixRegion s).outcome = s.outcome := rfl
@[simp] theorem fixRegion_port : (fixRegion s).port = s.port := rfl
@[simp] theorem fixRegion_rst : (fixRegion s).rst = s.rst := rfl
@[simp] theorem fixRegion_toc : (fixRegion s).toc = s.toc := rfl
@[simp] theorem fixRegion_tocPhase : (fixRegion s).tocPhase = s.tocPhase := rfl
@[simp] theorem fixRegion_sinkReady : (fixRegion s).sinkReady = s.sinkReady := rfl
@[simp] theorem fixRegion_host : (fixRegion s).host = s.host := rfl
@[simp] theorem fixRegion_busData : (fixRegion s).busData = s.busData := rfl
@[simp] theorem fixRegion_draws : (fixRegion s).draws = s.draws := rfl

/-! ### paddingResult -/

@[simp] theorem paddingResult_params : (paddingResult s).params = s.params := rfl
@[simp] theorem paddingResult_regs : (paddingResult s).regs = { s.regs with
      padInfo := ⟨s.dp.padHdr, true⟩
      padData := ⟨word16 s.dp.padData.toNat, word16 (s.dp.len.toNat - s.dp.padData.toNat)⟩
      padTotal := BitVec.ofNat 17 (s.dp.padHdr.toNat + s.dp.padData.toNat) } := rfl
@[simp] theorem paddingResult_pktBuf : (paddingResult s).pktBuf = s.pktBuf := rfl
@[simp] theorem paddingResult_sink : (paddingResult s).sink = s.sink := rfl
@[simp] theorem paddingResult_dp : (paddingResult s).dp = s.dp := rfl
@[simp] theorem paddingResult_fsm : (paddingResult s).fsm = s.fsm := rfl
@[simp] theorem paddingResult_outcome : (paddingResult s).outcome = s.outcome := rfl
@[simp] theorem paddingResult_port : (paddingResult s).port = s.port := rfl
@[simp] theorem paddingResult_rst : (paddingResult s).rst = s.rst := rfl
@[simp] theorem paddingResult_toc : (paddingResult s).toc = s.toc := rfl
@[simp] theorem paddingResult_tocPhase : (paddingResult s).tocPhase = s.tocPhase := rfl
@[simp] theorem paddingResult_sinkReady : (paddingResult s).sinkReady = s.sinkReady := rfl
@[simp] theorem paddingResult_host : (paddingResult s).host = s.host := rfl
@[simp] theorem paddingResult_busData : (paddingResult s).busData = s.busData := rfl
@[simp] theorem paddingResult_draws : (paddingResult s).draws = s.draws := rfl

/-! ### countPadByte -/

@[simp] theorem countPadByte_params (b : Byte) : (countPadByte b s).params = s.params := rfl
@[simp] theorem countPadByte_regs (b : Byte) : (countPadByte b s).regs = s.regs := rfl
@[simp] theorem countPadByte_pktBuf (b : Byte) : (countPadByte b s).pktBuf = s.pktBuf := rfl
@[simp] theorem countPadByte_sink (b : Byte) : (countPadByte b s).sink = s.sink := rfl
@[simp] theorem countPadByte_dp (b : Byte) : (countPadByte b s).dp = { s.dp with
      pos := word16 (s.dp.pos.toNat + 1)
      padHdr := word16 (s.dp.padHdr.toNat + 1)
      padData := word18 (s.dp.padData.toNat + padContribution b) } := rfl
@[simp] theorem countPadByte_fsm (b : Byte) : (countPadByte b s).fsm = s.fsm := rfl
@[simp] theorem countPadByte_outcome (b : Byte) : (countPadByte b s).outcome = s.outcome := rfl
@[simp] theorem countPadByte_port (b : Byte) : (countPadByte b s).port = s.port := rfl
@[simp] theorem countPadByte_rst (b : Byte) : (countPadByte b s).rst = s.rst := rfl
@[simp] theorem countPadByte_toc (b : Byte) : (countPadByte b s).toc = s.toc := rfl
@[simp] theorem countPadByte_tocPhase (b : Byte) : (countPadByte b s).tocPhase = s.tocPhase := rfl
@[simp] theorem countPadByte_sinkReady (b : Byte) : (countPadByte b s).sinkReady = s.sinkReady := rfl
@[simp] theorem countPadByte_host (b : Byte) : (countPadByte b s).host = s.host := rfl
@[simp] theorem countPadByte_busData (b : Byte) : (countPadByte b s).busData = s.busData := rfl
@[simp] theorem countPadByte_draws (b : Byte) : (countPadByte b s).draws = s.draws := rfl

/-! ### writeCtrl -/

@[simp] theorem writeCtrl_params (d : Word) : (writeCtrl d s).params = s.params := rfl
@[simp] theorem writeCtrl_regs (d : Word) : (writeCtrl d s).regs = { s.regs with ctrl := ⟨flagBit d 1, flagBit d 2⟩ } := rfl
@[simp] theorem writeCtrl_pktBuf (d : Word) : (writeCtrl d s).pktBuf = s.pktBuf := rfl
@[simp] theorem writeCtrl_sink (d : Word) : (writeCtrl d s).sink = s.sink := rfl
@[simp] theorem writeCtrl_dp (d : Word) : (writeCtrl d s).dp = s.dp := rfl
@[simp] theorem writeCtrl_fsm (d : Word) : (writeCtrl d s).fsm = s.fsm := rfl
@[simp] theorem writeCtrl_outcome (d : Word) : (writeCtrl d s).outcome = s.outcome := rfl
@[simp] theorem writeCtrl_port (d : Word) : (writeCtrl d s).port = s.port := rfl
@[simp] theorem writeCtrl_rst (d : Word) : (writeCtrl d s).rst = s.rst := rfl
@[simp] theorem writeCtrl_toc (d : Word) : (writeCtrl d s).toc = s.toc := rfl
@[simp] theorem writeCtrl_tocPhase (d : Word) : (writeCtrl d s).tocPhase = s.tocPhase := rfl
@[simp] theorem writeCtrl_sinkReady (d : Word) : (writeCtrl d s).sinkReady = s.sinkReady := rfl
@[simp] theorem writeCtrl_host (d : Word) : (writeCtrl d s).host = s.host := rfl
@[simp] theorem writeCtrl_busData (d : Word) : (writeCtrl d s).busData = s.busData := rfl
@[simp] theorem writeCtrl_draws (d : Word) : (writeCtrl d s).draws = s.draws := rfl

/-! ### returnRead -/

@[simp] theorem returnRead_params (w : Word) (k : Nat) : (returnRead w k s).params = s.params := rfl
@[simp] theorem returnRead_regs (w : Word) (k : Nat) : (returnRead w k s).regs = s.regs := rfl
@[simp] theorem returnRead_pktBuf (w : Word) (k : Nat) : (returnRead w k s).pktBuf = s.pktBuf := rfl
@[simp] theorem returnRead_sink (w : Word) (k : Nat) : (returnRead w k s).sink = s.sink := rfl
@[simp] theorem returnRead_dp (w : Word) (k : Nat) : (returnRead w k s).dp = s.dp := rfl
@[simp] theorem returnRead_fsm (w : Word) (k : Nat) : (returnRead w k s).fsm = s.fsm := rfl
@[simp] theorem returnRead_outcome (w : Word) (k : Nat) : (returnRead w k s).outcome = s.outcome := rfl
@[simp] theorem returnRead_port (w : Word) (k : Nat) : (returnRead w k s).port = s.port := rfl
@[simp] theorem returnRead_rst (w : Word) (k : Nat) : (returnRead w k s).rst = s.rst := rfl
@[simp] theorem returnRead_toc (w : Word) (k : Nat) : (returnRead w k s).toc = s.toc := rfl
@[simp] theorem returnRead_tocPhase (w : Word) (k : Nat) : (returnRead w k s).tocPhase = s.tocPhase := rfl
@[simp] theorem returnRead_sinkReady (w : Word) (k : Nat) : (returnRead w k s).sinkReady = s.sinkReady := rfl
@[simp] theorem returnRead_host (w : Word) (k : Nat) : (returnRead w k s).host = s.host.tail := rfl
@[simp] theorem returnRead_busData (w : Word) (k : Nat) : (returnRead w k s).busData = w := rfl
@[simp] theorem returnRead_draws (w : Word) (k : Nat) : (returnRead w k s).draws = s.draws + k := rfl

/-! ### lenGrouped -/

@[simp] theorem lenGrouped_params (v n : Nat) : (lenGrouped v n s).params = s.params := rfl
@[simp] theorem lenGrouped_regs (v n : Nat) : (lenGrouped v n s).regs = s.regs := rfl
@[simp] theorem lenGrouped_pktBuf (v n : Nat) : (lenGrouped v n s).pktBuf = s.pktBuf := rfl
@[simp] theorem lenGrouped_sink (v n : Nat) : (lenGrouped v n s).sink = s.sink := rfl
@[simp] theorem lenGrouped_dp (v n : Nat) : (lenGrouped v n s).dp = { s.dp with
      pos := word16 (s.dp.pos.toNat + n)
      lens := s.dp.lens ++ [BitVec.ofNat 11 v]
      lsum := word18 (s.dp.lsum.toNat + v) } := rfl
@[simp] theorem lenGrouped_fsm (v n : Nat) : (lenGrouped v n s).fsm = s.fsm := rfl
@[simp] theorem lenGrouped_outcome (v n : Nat) : (lenGrouped v n s).outcome = s.outcome := rfl
@[simp] theorem lenGrouped_port (v n : Nat) : (lenGrouped v n s).port = s.port := rfl
@[simp] theorem lenGrouped_rst (v n : Nat) : (lenGrouped v n s).rst = s.rst := rfl
@[simp] theorem lenGrouped_toc (v n : Nat) : (lenGrouped v n s).toc = s.toc := rfl
@[simp] theorem lenGrouped_tocPhase (v n : Nat) : (lenGrouped v n s).tocPhase = s.tocPhase := rfl
@[simp] theorem lenGrouped_sinkReady (v n : Nat) : (lenGrouped v n s).sinkReady = s.sinkReady := rfl
@[simp] theorem lenGrouped_host (v n : Nat) : (lenGrouped v n s).host = s.host := rfl
@[simp] theorem lenGrouped_busData (v n : Nat) : (lenGrouped v n s).busData = s.busData := rfl
@[simp] theorem lenGrouped_draws (v n : Nat) : (lenGrouped v n s).draws = s.draws := rfl

end Sys2Proof.Machine
end

