-- ==== Sys2Proof/Laws/Ops.lean ====
section
/-! SUPPORT. Sys2Proof/Laws/Ops.lean: for each shared operation, once, everything it can do. -/

namespace Sys2Proof.Machine

/-- `emit` raises FrameTooBig, or presents the descriptor and moves the cursor and the frame index (R161). -/
theorem emit_cases (off n pos' : Nat) (s : State) :
    (s.dp.strict = true ∧ Config.maxFrame < n ∧ emit off n pos' s = raise .frameTooBig s)
      ∨ (¬ (s.dp.strict = true ∧ Config.maxFrame < n)
          ∧ emit off n pos' s = { s with
              port := some ⟨word16 off, word16 n⟩
              dp := { s.dp with pos := word16 pos', fidx := s.dp.fidx + 1 } }) := by
  unfold emit
  split
  · exact .inl ⟨‹_ ∧ _›.1, ‹_ ∧ _›.2, rfl⟩
  · exact .inr ⟨‹_›, rfl⟩

/-- A sink that is not ready leaves the state alone (R231). -/
theorem acceptDesc_stalled {d : Desc} {s : State} (h : s.sinkReady = false) : acceptDesc d s = s := by
  simp [acceptDesc, h]

/-- A ready sink takes the descriptor, and both counters count it (R161). -/
theorem acceptDesc_ready {d : Desc} {s : State} (h : s.sinkReady = true) :
    acceptDesc d s = { s with
      port := none
      sink := s.sink ++ [d]
      dp := { s.dp with nf := s.dp.nf + 1 }
      regs := { s.regs with numFrames := s.dp.nf + 1 } } := by
  simp [acceptDesc, h]

/-- `writeConfig` answers a next state only in S_TOC, before the stereo flag (R120). -/
theorem writeConfig_next {k : BitVec 5} {s t : State} (h : writeConfig k s = .next t) :
    s.atToc .config = true ∧ t = { s with
      regs := { s.regs with tocInfo := { s.regs.tocInfo with
        config := k, mode := (configLookup k).mode, bw := (configLookup k).bw, dur := (configLookup k).dur } }
      dp := { s.dp with dur := (configLookup k).dur }
      tocPhase := .stereo } := by
  unfold writeConfig at h
  split at h
  · exact ⟨‹_›, (Host.Outcome.next.inj h).symm⟩
  · cases h

/-- `writeStereo` answers a next state only in S_TOC, between the configuration and the Code (R120). -/
theorem writeStereo_next {b : Bool} {s t : State} (h : writeStereo b s = .next t) :
    s.atToc .stereo = true ∧ t = { s with
      regs := { s.regs with tocInfo := { s.regs.tocInfo with stereo := b } }
      tocPhase := .code } := by
  unfold writeStereo at h
  split at h
  · exact ⟨‹_›, (Host.Outcome.next.inj h).symm⟩
  · cases h

/-- `c3Form` answers a next state in S_C3H, S_C3P without padding, and S_C3F without a length field due (R220). -/
theorem c3Form_next {v p : Bool} {m : BitVec 6} {s t : State} (h : c3Form v p m s = .next t) :
    s.canWork = true ∧
      ((s.fsm = .sC3h ∧ t = readHeader v p m s)
        ∨ (s.fsm = .sC3p ∧ s.c3Is v p m = true ∧ p = false ∧ t = fixRegion s)
        ∨ (s.fsm = .sC3f ∧ s.c3Is v p m = true ∧ s.expectsLen = false ∧ t = c3Frame s)) := by
  unfold c3Form at h
  split at h
  · exact ⟨‹_ ∧ _›.1, .inl ⟨‹_ ∧ _›.2, (Host.Outcome.next.inj h).symm⟩⟩
  · split at h
    · obtain ⟨h1, h2, h3, h4⟩ := ‹_ ∧ _›
      exact ⟨h1, .inr (.inl ⟨h2, h3, h4, (Host.Outcome.next.inj h).symm⟩)⟩
    · split at h
      · obtain ⟨h1, h2, h3, h4⟩ := ‹_ ∧ _›
        exact ⟨h1, .inr (.inr ⟨h2, h3, h4, (Host.Outcome.next.inj h).symm⟩)⟩
      · cases h

/-- `lenForm` answers a next state only where a length field is due, and then does the work of the rule that called for
it (R164, R170, R171). -/
theorem lenForm_next {row : Instr} {v n : Nat} {s t : State} (h : lenForm row v n s = .next t) :
    s.canWork = true ∧ s.expectsLen = true ∧
      ((s.fsm = .sC2 ∧ t = lenCode2 v n s)
        ∨ (s.fsm ≠ .sC2 ∧ s.params.layout = .interleaved ∧ t = lenInterleaved v n s)
        ∨ (s.fsm ≠ .sC2 ∧ s.params.layout = .grouped ∧ t = lenGrouped v n s)) := by
  unfold lenForm at h
  split at h
  · obtain ⟨h1, h2⟩ := ‹_ ∧ _›
    refine ⟨h1, h2, ?_⟩
    split at h
    · exact .inl ⟨‹_›, (Host.Outcome.next.inj h).symm⟩
    · split at h
      · exact .inr (.inl ⟨‹_›, ‹_›, (Host.Outcome.next.inj h).symm⟩)
      · exact .inr (.inr ⟨‹_›, ‹_›, (Host.Outcome.next.inj h).symm⟩)
  · cases h

/-- `padForm` answers a next state only where a chain byte is due (R142). -/
theorem padForm_next {row : Instr} {b : Byte} {last : Bool} {s t : State} (h : padForm row b last s = .next t) :
    s.canWork = true ∧ s.fsm = .sC3p ∧ s.dp.padf = true ∧ t = padByte b last s := by
  unfold padForm at h
  split at h
  · obtain ⟨h1, h2, h3⟩ := ‹_ ∧ _›
    exact ⟨h1, h2, h3, (Host.Outcome.next.inj h).symm⟩
  · cases h

/-- One chain byte: LengthOverflow, or the end of the chain with its results, or the chain goes on (R142, R143). -/
theorem padByte_cases (b : Byte) (last : Bool) (s : State) :
    padByte b last s = raise .lengthOverflow (countPadByte b s)
      ∨ (last = true ∧ padByte b last s = fixRegion (paddingResult (countPadByte b s)))
      ∨ (last = false ∧ padByte b last s = countPadByte b s) := by
  unfold padByte
  simp only
  split
  · exact .inl rfl
  · cases last
    · exact .inr (.inr ⟨rfl, rfl⟩)
    · exact .inr (.inl ⟨rfl, rfl⟩)

/-- A host command in reset only leaves the queue; otherwise it is the command's work after that (R280). -/
theorem hostCommand_cases (s : State) (f : State → Host.Outcome State Fault Refusal) :
    (s.rst = true ∧ hostCommand s f = .next s.retire) ∨ (s.rst = false ∧ hostCommand s f = f s.retire) := by
  cases h : s.rst <;> simp [hostCommand, h]

/-- START's three outcomes (R222, R223, R235). -/
theorem startWork_cases (s : State) :
    (s.fsm ≠ .idle ∧ startWork s = .next s)
      ∨ (s.fsm = .idle ∧ s.params.pktMax < s.regs.pktLen.toNat
          ∧ startWork s = .refused (.startLenTooLarge s.regs.pktLen.toNat))
      ∨ (s.fsm = .idle ∧ s.regs.pktLen.toNat ≤ s.params.pktMax ∧ startWork s = .next (beginParse s)) := by
  unfold startWork
  split
  · exact .inl ⟨‹_›, rfl⟩
  · have hi : s.fsm = .idle := by simpa using ‹¬ s.fsm ≠ .idle›
    split
    · exact .inr (.inl ⟨hi, ‹_›, rfl⟩)
    · exact .inr (.inr ⟨hi, by omega, rfl⟩)

/-- What one step is: the host's action, or a block step (R224). -/
theorem step_cases (s : State) :
    (s.host = [] ∧ step s = blockStep s)
      ∨ (∃ e rest, s.host = e :: rest ∧ hostTurn e s = true ∧ step s = hostStep e.act s)
      ∨ (∃ e rest, s.host = e :: rest ∧ hostTurn e s = false ∧ step s = blockStep s.countDown) := by
  unfold step
  split
  · exact .inl ⟨‹_›, rfl⟩
  · rename_i e rest he
    split
    · exact .inr (.inl ⟨e, rest, he, ‹_›, rfl⟩)
    · exact .inr (.inr ⟨e, rest, he, by simpa using ‹¬ hostTurn e s = true›, rfl⟩)

/-- A block step changes nothing of the host's queue but the delay it counts down. -/
theorem countDown_frame (s : State) : s.countDown = { s with host := s.countDown.host } := by
  unfold State.countDown; cases s.host <;> rfl

/-! ### The host's queue does not matter to the block's work

So a block step taken while a host action waits is the block step of the same state without that queue. -/

/-- The same work with another host queue. -/
def withQueue (q : List HostEvent) : BlockWork → BlockWork
  | .run i s => .run i { s with host := q }
  | .rest => .rest
  | .accept d => .accept d
  | .finish => .finish
  | .raise e => .raise e
  | .fault f => .fault f

theorem runField_queue (f : Format) (bytes : List Byte) (s : State) (q : List HostEvent) :
    runField f bytes { s with host := q } = withQueue q (runField f bytes s) := by
  unfold runField
  split <;> rfl

theorem memRead_queue {s : State} {q : List HostEvent} {k k' : Byte → BlockWork} (i : Nat)
    (hk : ∀ b, k b = withQueue q (k' b)) : memRead { s with host := q } i k = withQueue q (memRead s i k') := by
  unfold memRead
  cases h : Memory.read s.pktBuf i <;> simp [hk, withQueue]

theorem lenField_queue (p stop : Nat) (s : State) (q : List HostEvent) :
    lenField p stop { s with host := q } = withQueue q (lenField p stop s) := by
  unfold lenField
  split
  · rfl
  · refine memRead_queue p fun b => ?_
    split
    · exact runField_queue ..
    · split
      · rfl
      · exact memRead_queue _ fun b => runField_queue ..

theorem tocWork_queue (s : State) (q : List HostEvent) :
    tocWork { s with host := q } = withQueue q (tocWork s) := by
  cases h : s.tocPhase <;> simp only [tocWork, h]
  · split
    · rfl
    · refine memRead_queue 0 fun b => ?_
      simp [runField, decodeField, withQueue]
  · simp [runField, decodeField, withQueue, h]
  · simp [runField, decodeField, withQueue, h]

theorem fsmWork_queue (s : State) (q : List HostEvent) :
    fsmWork { s with host := q } = withQueue q (fsmWork s) := by
  have he : State.expectsLen { s with host := q } = s.expectsLen := rfl
  simp only [fsmWork, he]
  split
  · rfl
  · exact tocWork_queue ..
  · rfl
  · rfl
  · split
    · exact lenField_queue ..
    · rfl
  · split
    · rfl
    · exact memRead_queue 1 fun _ => runField_queue ..
  · split
    · split
      · rfl
      · exact memRead_queue _ fun _ => runField_queue ..
    · rfl
  · split
    · exact lenField_queue ..
    · rfl
  · rfl

/-- What the block does next, with another host queue (R224). -/
theorem nextWork_queue (s : State) (q : List HostEvent) :
    nextWork { s with host := q } = withQueue q (nextWork s) := by
  simp only [nextWork]
  split
  · rfl
  · split
    · rfl
    · exact fsmWork_queue ..

/-- What the block does next while a host action waits (log 1). -/
theorem nextWork_countDown (s : State) : nextWork s.countDown = withQueue s.countDown.host (nextWork s) := by
  rw [countDown_frame]
  exact nextWork_queue ..

end Sys2Proof.Machine
end

