-- ==== Sys2Proof/Laws/PerInstr.lean ====
section
/-! SUPPORT. Sys2Proof/Laws/PerInstr.lean: one fact about every row of the opcode table as syntax: the size of its
encoding (30_encoding.md R80, R84, 20_memory.md R64, R65). -/

namespace Sys2Proof.Laws.Footprint

/-- How many bits an encoding takes: eight a packet byte, or the width of the bus write. -/
def bits : Encoding → Nat
  | .packet _ bytes => 8 * bytes.length
  | .bus _ width _ => width

/-- A row takes a whole number of bytes: one packet byte, or two, or a bus write of 8 or 32 bits. -/
def Statement (i : Instr) : Prop :=
  match encode i with
  | .packet .len bytes => bits (encode i) = 8 * bytes.length ∧ (bytes.length = 1 ∨ bytes.length = 2)
  | .packet _ _ => bits (encode i) = 8
  | .bus offset _ _ => bits (encode i) = 32 ∨ (bits (encode i) = 8 ∧ Config.pktWinOff ≤ offset)

theorem tocCode0 : Statement .tocCode0 := rfl
theorem tocCode1 : Statement .tocCode1 := rfl
theorem tocCode2 : Statement .tocCode2 := rfl
theorem tocCode3 : Statement .tocCode3 := rfl
theorem cfg00 : Statement .cfg00 := rfl
theorem cfg01 : Statement .cfg01 := rfl
theorem cfg02 : Statement .cfg02 := rfl
theorem cfg03 : Statement .cfg03 := rfl
theorem cfg04 : Statement .cfg04 := rfl
theorem cfg05 : Statement .cfg05 := rfl
theorem cfg06 : Statement .cfg06 := rfl
theorem cfg07 : Statement .cfg07 := rfl
theorem cfg08 : Statement .cfg08 := rfl
theorem cfg09 : Statement .cfg09 := rfl
theorem cfg10 : Statement .cfg10 := rfl
theorem cfg11 : Statement .cfg11 := rfl
theorem cfg12 : Statement .cfg12 := rfl
theorem cfg13 : Statement .cfg13 := rfl
theorem cfg14 : Statement .cfg14 := rfl
theorem cfg15 : Statement .cfg15 := rfl
theorem cfg16 : Statement .cfg16 := rfl
theorem cfg17 : Statement .cfg17 := rfl
theorem cfg18 : Statement .cfg18 := rfl
theorem cfg19 : Statement .cfg19 := rfl
theorem cfg20 : Statement .cfg20 := rfl
theorem cfg21 : Statement .cfg21 := rfl
theorem cfg22 : Statement .cfg22 := rfl
theorem cfg23 : Statement .cfg23 := rfl
theorem cfg24 : Statement .cfg24 := rfl
theorem cfg25 : Statement .cfg25 := rfl
theorem cfg26 : Statement .cfg26 := rfl
theorem cfg27 : Statement .cfg27 := rfl
theorem cfg28 : Statement .cfg28 := rfl
theorem cfg29 : Statement .cfg29 := rfl
theorem cfg30 : Statement .cfg30 := rfl
theorem cfg31 : Statement .cfg31 := rfl
theorem tocMono : Statement .tocMono := rfl
theorem tocStereo : Statement .tocStereo := rfl
theorem padCont : Statement .padCont := rfl
theorem c3Cbr (m : BitVec 6) : Statement (.c3Cbr m) := rfl
theorem c3CbrPad (m : BitVec 6) : Statement (.c3CbrPad m) := rfl
theorem c3Vbr (m : BitVec 6) : Statement (.c3Vbr m) := rfl
theorem c3VbrPad (m : BitVec 6) : Statement (.c3VbrPad m) := rfl
theorem len1 (b0 : Byte) : Statement (.len1 b0) := ⟨rfl, .inl rfl⟩
theorem len2 (b0 b1 : Byte) : Statement (.len2 b0 b1) := ⟨rfl, .inr rfl⟩
theorem padTerm (t : Byte) : Statement (.padTerm t) := rfl
theorem setCtrl (d : Word) : Statement (.setCtrl d) := .inl rfl
theorem start (d : Word) : Statement (.start d) := .inl rfl
theorem ackDone (d : Word) : Statement (.ackDone d) := .inl rfl
theorem setLen (d : Word) : Statement (.setLen d) := .inl rfl
theorem writePkt (i : BitVec 16) (v : PktData) : Statement (.writePkt i v) := by
  cases v with
  | byte b => exact .inr ⟨rfl, by simp [Config.pktWinOff]⟩
  | word w => exact .inl rfl

end Sys2Proof.Laws.Footprint
end

