-- ==== Sys2Proof/Tests/Slice0.lean ====
section
/-! SUPPORT. Sys2Proof/Tests/Slice0.lean: the model's own tests: ill-formed terms, decoded words, single steps with the
results of spec/95_test_vectors.md, and a witness of the hypotheses of every obligation that has some. -/

namespace Sys2Proof.Tests

open Sys2Proof Sys2Proof.Machine

/-! ### States built for the tests -/

/-- The memory that holds a packet from index 0 on. -/
def mem (pkt : List Byte) : List Host.Cell := pkt.zipIdx.map fun c => (c.2, c.1)

/-- A lenient parse of `pkt` with latched length `len`, in the FSM state `f` with the cursor at `pos`. -/
def parsing (f : Fsm) (pkt : List Byte) (len pos : Nat) : State :=
  { State.reset with
    fsm := f
    pktBuf := mem pkt
    regs := { Regs.zero with pktLen := word16 len }
    dp := { Datapath.zero with len := word16 len, pos := word16 pos } }

/-- The same parse, strict. -/
def strictly (s : State) : State := { s with dp := { s.dp with strict := true } }

/-- The same parse with `n` frames already emitted. -/
def after (n : Nat) (s : State) : State :=
  { s with
    dp := { s.dp with fidx := BitVec.ofNat 6 n, nf := word16 n }
    regs := { s.regs with numFrames := word16 n } }

/-- The same parse with the row `ph` of the TOC byte `b` to come. -/
def atRow (ph : TocPhase) (b : Byte) (s : State) : State := { s with tocPhase := ph, toc := b }

/-- A Code 3 parse in `f` with header `v`, `p`, `m`, `hdr` chain bytes and `data` padding bytes. -/
def code3 (f : Fsm) (v p : Bool) (m hdr data : Nat) (pkt : List Byte) (len pos : Nat) : State :=
  let s := parsing f pkt len pos
  { s with dp := { s.dp with
      vbr := v
      padf := p
      m := BitVec.ofNat 6 m
      padHdr := word16 hdr
      padData := word18 data
      regionEnd := word16 (len - data) } }

/-- The same machine with the grouped layout. -/
def grouped (s : State) : State := { s with params := { s.params with layout := .grouped } }

/-- The same machine with one host action pending. -/
def withHost (a : HostAction) (s : State) : State := { s with host := [⟨0, a⟩] }

/-- The next state, if there is one. -/
def nextOf (o : Host.Outcome State Fault Refusal) : Option State :=
  match o with
  | .next t => some t
  | .fault _ | .refused _ => none

/-- The fault, if there is one. -/
def faultOf (o : Host.Outcome State Fault Refusal) : Option Fault :=
  match o with
  | .fault f => some f
  | .next _ | .refused _ => none

/-- The refusal, if there is one. -/
def refusalOf (o : Host.Outcome State Fault Refusal) : Option Refusal :=
  match o with
  | .refused r => some r
  | .next _ | .fault _ => none

/-- What a decode gives, if it gives an instruction. -/
def okOf (o : Except DecodeError Instr) : Option Instr :=
  match o with
  | .ok i => some i
  | .error _ => none

/-- The instruction a field decodes to, if the whole field is used. -/
def fieldOf (f : Format) (bytes : List Byte) : Option Instr :=
  match decodeField f bytes with
  | .ok (i, []) => some i
  | _ => none

/-! ### Ill-formed terms (30_encoding.md R84, R85, R89; 20_memory.md R65) -/

theorem test_len1_252_ill_formed : (Instr.len1 252).wellFormed = false := by decide
theorem test_len2_251_ill_formed : (Instr.len2 251 0).wellFormed = false := by decide
theorem test_pad_term_255_ill_formed : (Instr.padTerm 255).wellFormed = false := by decide
theorem test_set_ctrl_bit0_ill_formed : (Instr.setCtrl 1).wellFormed = false := by decide
theorem test_start_without_bit0_ill_formed : (Instr.start 6).wellFormed = false := by decide
theorem test_ack_done_without_bit1_ill_formed : (Instr.ackDone 0xFFFFFFFD).wellFormed = false := by decide
theorem test_write_word_odd_offset_ill_formed : (Instr.writePkt 2 (.word 0)).wellFormed = false := by decide

/-! ### Words written out from the encodings (30_encoding.md R81 to R89) -/

theorem test_decode_codes :
    [0b00000000#8, 0b00000001, 0b11111110, 0b00000011].map (fun b => fieldOf .tocCode [b])
      = [some .tocCode0, some .tocCode1, some .tocCode2, some .tocCode3] := by decide

theorem test_decode_configurations_0_15 :
    [0b00000000#8, 0b00001111, 0b00010000, 0b00011000, 0b00100000, 0b00101000, 0b00110000, 0b00111000,
     0b01000000, 0b01001000, 0b01010000, 0b01011000, 0b01100001, 0b01101000, 0b01110000, 0b01111000].map
        (fun b => fieldOf .tocConfig [b])
      = [some .cfg00, some .cfg01, some .cfg02, some .cfg03, some .cfg04, some .cfg05, some .cfg06, some .cfg07,
         some .cfg08, some .cfg09, some .cfg10, some .cfg11, some .cfg12, some .cfg13, some .cfg14,
         some .cfg15] := by decide

theorem test_decode_configurations_16_31 :
    [0b10000000#8, 0b10001000, 0b10010000, 0b10011000, 0b10100000, 0b10101000, 0b10110000, 0b10111000,
     0b11000000, 0b11001000, 0b11010000, 0b11011000, 0b11100000, 0b11101000, 0b11110000, 0b11111111].map
        (fun b => fieldOf .tocConfig [b])
      = [some .cfg16, some .cfg17, some .cfg18, some .cfg19, some .cfg20, some .cfg21, some .cfg22, some .cfg23,
         some .cfg24, some .cfg25, some .cfg26, some .cfg27, some .cfg28, some .cfg29, some .cfg30,
         some .cfg31] := by decide

theorem test_decode_stereo :
    fieldOf .tocStereo [0b11111011] = some .tocMono ∧ fieldOf .tocStereo [0b00000100] = some .tocStereo := by decide

theorem test_decode_code3_headers :
    [0b00000010#8, 0b01000001, 0b10000010, 0b11111111].map (fun b => fieldOf .c3h [b])
      = [some (.c3Cbr 2), some (.c3CbrPad 1), some (.c3Vbr 2), some (.c3VbrPad 63)] := by decide

/-- 95_test_vectors.md LD2, LD3, LD6, LD8. -/
theorem test_decode_lengths :
    fieldOf .len [0b11111011] = some (.len1 251) ∧ fieldOf .len [0b11111100, 0] = some (.len2 252 0)
      ∧ fieldOf .len [0b11111101, 0b00010000] = some (.len2 253 16)
      ∧ lenRowValue (.len2 253 16) = some (317, 2) ∧ lenRowValue (.len2 255 255) = some (1275, 2) := by decide

theorem test_decode_padding :
    fieldOf .pad [0b11111111] = some .padCont ∧ fieldOf .pad [0b11111110] = some (.padTerm 254) := by decide

theorem test_decode_commands :
    okOf (decodeBus 16 0x00 32 0b110) = some (.setCtrl 6) ∧ okOf (decodeBus 16 0x00 32 0b011) = some (.start 3)
      ∧ okOf (decodeBus 16 0x04 32 0b010) = some (.ackDone 2)
      ∧ okOf (decodeBus 16 0x08 32 0x10006) = some (.setLen 0x10006)
      ∧ okOf (decodeBus 16 0x1000F 8 0xFC) = some (.writePkt 15 (.byte 0xFC))
      ∧ okOf (decodeBus 16 0x1000C 32 0x221100FC) = some (.writePkt 12 (.word 0x221100FC)) := by decide

/-- R64, R65, R24: what is no command. -/
theorem test_decode_refusals :
    okOf (decodeBus 16 0x00 16 1) = none ∧ okOf (decodeBus 16 0x02 32 1) = none
      ∧ okOf (decodeBus 16 0x04 32 0xFFFFFFFD) = none ∧ okOf (decodeBus 16 0x10002 32 0) = none
      ∧ okOf (decodeBus 16 0x10010 8 0) = none ∧ okOf (decodeBus 16 0x20000 32 0) = none := by decide

/-! ### Single steps, with the results of 95_test_vectors.md -/

/-- T1: the first row of `[0x00]` is configuration 0, SILK, narrow band, 10 ms. -/
theorem test_cfg00_step :
    (nextOf (step (parsing .sToc [0x00] 1 0))).map (fun t => t.registerWord 0x0C) = some 0x00004000 := by decide

/-- T4: configuration 31 is CELT, full band, 20 ms. -/
theorem test_cfg31_step :
    (nextOf (step (parsing .sToc [0xFC] 1 0))).map (fun t => t.registerWord 0x0C) = some 0x0000711F := by decide

/-- T5: configuration 15 is Hybrid, full band, 20 ms. -/
theorem test_cfg15_step :
    (nextOf (exec .cfg15 (parsing .sToc [0x78] 1 0))).map (fun t => t.registerWord 0x0C) = some 0x0000720F := by decide

/-- T6: configuration 16 is CELT, narrow band, 2.5 ms. -/
theorem test_cfg16_step :
    (nextOf (exec .cfg16 (parsing .sToc [0x80] 1 0))).map (fun t => t.registerWord 0x0C) = some 0x00000110 := by decide

/-- T7: configuration 12 is Hybrid, super-wide band, 10 ms. -/
theorem test_cfg12_step :
    (nextOf (exec .cfg12 (parsing .sToc [0x61] 3 0))).map (fun t => t.registerWord 0x0C) = some 0x00004E0C := by decide

/-- T2: the stereo bit of `[0x04]` is bit 5 of TOC_INFO. -/
theorem test_stereo_step :
    (nextOf (step (atRow .stereo 0x04 (parsing .sToc [0x04] 1 0)))).map (fun t => t.registerWord 0x0C)
      = some 0x00000020 := by decide

theorem test_mono_step :
    (nextOf (step (atRow .stereo 0xFB (parsing .sToc [0xFB] 1 0)))).map (fun t => t.regs.tocInfo.stereo)
      = some false := by decide

/-- R221: the Code goes to its state, with TOC_VALID and the cursor at 1. -/
theorem test_code3_dispatch :
    (nextOf (step (atRow .code 0x0B (parsing .sToc [0x0B] 1 0)))).map (fun t => (t.fsm, t.dp.pos, t.registerWord 0x0C))
      = some (.sC3h, 1, 0x800000C0) := by decide

/-- T9: an empty packet raises NoTOC, and no packet byte is read. -/
theorem test_no_toc : (nextOf (step (parsing .sToc [] 0 0))).map (·.outcome) = some (some .noTOC) := by decide

/-- HO-10: the TOC byte was never written. -/
theorem test_unwritten_toc : faultOf (step (parsing .sToc [] 3 0)) = some (.unwrittenPacketByte 0) := by decide

/-- C0-2. -/
theorem test_code0_frame :
    (nextOf (step (parsing .sC0 [0x00, 0xAA, 0xBB] 3 1))).map (·.port) = some (some ⟨1, 2⟩) := by decide

/-- C0-4. -/
theorem test_code0_too_big :
    (nextOf (exec .tocCode0 (strictly (parsing .sC0 [0x00] 1277 1)))).map (·.outcome) = some (some .frameTooBig) := by
  decide

/-- C1-2: the second frame. -/
theorem test_code1_second_frame :
    (nextOf (step (after 1 (parsing .sC1 [0x01, 0xAA, 0xBB] 3 1)))).map (·.port) = some (some ⟨2, 1⟩) := by decide

/-- C1-3: an even length. -/
theorem test_code1_even_length :
    (nextOf (step (parsing .sC1 [0x01, 0xAA] 2 1))).map (·.outcome) = some (some .nonOddLength) := by decide

/-- C2-2: frame 0 by LEN1. -/
theorem test_code2_len1 :
    (nextOf (step (parsing .sC2 [0x02, 0x01, 0xAA, 0xBB, 0xCC] 5 1))).map (fun t => (t.port, t.dp.pos))
      = some (some ⟨2, 1⟩, 3) := by decide

/-- C2-10: frame 0 by LEN2. -/
theorem test_code2_len2 :
    (nextOf (step (parsing .sC2 [0x02, 0xFD, 0x10] 322 1))).map (fun t => (t.port, t.dp.pos))
      = some (some ⟨3, 317⟩, 320) := by decide

/-- C2-2: frame 1. -/
theorem test_code2_rest :
    (nextOf (step (after 1 (parsing .sC2 [0x02, 0x01, 0xAA, 0xBB, 0xCC] 5 3)))).map (·.port) = some (some ⟨3, 2⟩) := by
  decide

/-- C2-3: frame 0 does not fit. -/
theorem test_code2_overflow :
    (nextOf (step (parsing .sC2 [0x02, 0x05, 0xAA] 3 1))).map (·.outcome) = some (some .lengthOverflow) := by decide

/-- H-1. -/
theorem test_header_missing :
    (nextOf (step (parsing .sC3h [0x03] 1 1))).map (·.outcome) = some (some .packetTooSmall) := by decide

/-- CB-1: C3_INFO of a CBR header. -/
theorem test_header_cbr :
    (nextOf (step (parsing .sC3h [0x03, 0x02] 6 1))).map (fun t => (t.fsm, t.registerWord 0x10))
      = some (.sC3p, 0x80000002) := by decide

/-- PR-1: NoAudio comes before the chain. -/
theorem test_header_no_audio :
    (nextOf (step (strictly (parsing .sC3h [0x03, 0x40] 2 1)))).map (fun t => (t.outcome, t.registerWord 0x10))
      = some (some .noAudio, 0x80000040) := by decide

/-- DU-1: three frames of 60 ms are too much audio. -/
theorem test_header_too_much_audio :
    (nextOf (exec (.c3Vbr 3) (strictly
      { parsing .sC3h [0x1B, 0x83] 5 1 with
        dp := { Datapath.zero with len := 5, pos := 1, dur := .ms60 } }))).map (·.outcome)
      = some (some .tooMuchAudio) := by decide

/-- VB-6: C3_INFO of a VBR header with padding. -/
theorem test_header_vbr_pad :
    (nextOf (step (parsing .sC3h [0x03, 0xC2] 7 1))).map (fun t => t.registerWord 0x10) = some 0x800000C2 := by decide

/-- PD-1: the chain byte 0x02. -/
theorem test_pad_term :
    (nextOf (step (code3 .sC3p false true 1 0 0 [0x03, 0x41, 0x02, 0xAA, 0x00, 0x00] 6 2))).map
        (fun t => (t.registerWord 0x18, t.registerWord 0x1C, t.registerWord 0x20, t.dp.regionEnd))
      = some (0x80000001, 0x00040002, 3, 4) := by decide

/-- PD-6: the chain goes on after 0xFF. -/
theorem test_pad_cont :
    (nextOf (step (code3 .sC3p false true 1 0 0 [0x03, 0x41, 0xFF, 0x00] 259 2))).map
        (fun t => (t.fsm, t.dp.padHdr, t.dp.padData, t.dp.pos))
      = some (.sC3p, 1, 254, 3) := by decide

/-- PD-5: the running total 1 + 254 exceeds LEN - 2 = 1. -/
theorem test_pad_cont_overflow :
    (nextOf (step (code3 .sC3p false true 1 0 0 [0x03, 0x41, 0xFF] 3 2))).map (·.outcome)
      = some (some .lengthOverflow) := by decide

/-- HO-11: the chain byte was never written. -/
theorem test_pad_unwritten :
    faultOf (step (code3 .sC3p false true 1 0 0 [0x03, 0x41] 4 2)) = some (.unwrittenPacketByte 2) := by decide

/-- R62: the second byte of the length field was never written. -/
theorem test_len2_unwritten :
    faultOf (step (parsing .sC2 [0x02, 0xFC] 3 1)) = some (.unwrittenPacketByte 2) := by decide

/-- CB-1: frame 0. -/
theorem test_cbr_frame :
    (nextOf (step (code3 .sC3f false false 2 0 0 [] 6 2))).map (fun t => (t.port, t.dp.pos))
      = some (some ⟨2, 2⟩, 4) := by decide

/-- CB-2: R = 3, M = 2. -/
theorem test_cbr_remainder :
    (nextOf (exec (.c3Cbr 2) (code3 .sC3f false false 2 0 0 [] 5 2))).map (·.outcome)
      = some (some .nonMultipleRemainder) := by decide

/-- PD-9: frame 1 of a padded CBR packet. -/
theorem test_cbr_pad_frame :
    (nextOf (exec (.c3CbrPad 2) (after 1 (code3 .sC3f false true 2 1 1 [] 6 4)))).map (·.port)
      = some (some ⟨4, 1⟩) := by decide

/-- M0-4: no frames. -/
theorem test_no_frames :
    (nextOf (exec (.c3CbrPad 0) (code3 .sC3f false true 0 1 0 [] 3 3))).map (fun t => (t.fsm, t.outcome))
      = some (.sFin, none) := by decide

/-- LY-2: the second length field of the interleaved layout. -/
theorem test_interleaved_length :
    (nextOf (step (after 1 (code3 .sC3f true false 3 0 0 [0x03, 0x83, 0x01, 0xB0, 0x02] 8 4)))).map
        (fun t => (t.port, t.dp.pos))
      = some (some ⟨5, 2⟩, 7) := by decide

/-- VB-7: the second byte of the field would be padding. -/
theorem test_interleaved_cut_short :
    (nextOf (step (code3 .sC3f true true 2 1 1 [0x03, 0xC2, 0x01, 0xFC, 0xEE] 5 3))).map (·.outcome)
      = some (some .packetTooSmall) := by decide

/-- VB-1: the last frame of a VBR packet. -/
theorem test_vbr_last_frame :
    (nextOf (exec (.c3Vbr 2) (after 1 (code3 .sC3f true false 2 0 0 [] 6 4)))).map (·.port)
      = some (some ⟨4, 2⟩) := by decide

/-- LY-3, grouped: the padded packet's frame 0, its lengths read. -/
theorem test_grouped_frame :
    (nextOf (exec (.c3VbrPad 3) (grouped
      { code3 .sC3f true true 3 1 1 [] 10 5 with
        dp := { (code3 .sC3f true true 3 1 1 [] 10 5).dp with lens := [1, 2], lsum := 3 } }))).map
        (fun t => (t.port, t.dp.pos))
      = some (some ⟨5, 1⟩, 6) := by decide

/-- T1: the descriptor is accepted. -/
theorem test_accept :
    (nextOf (step { after 0 (parsing .sC0 [0x00] 1 1) with port := some ⟨1, 0⟩ })).map
        (fun t => (t.sink, t.regs.numFrames, t.port))
      = some ([⟨1, 0⟩], 1, none) := by decide

/-- 60_exceptions.md R250: PacketTooSmall reads 0x46. -/
theorem test_finish :
    (nextOf (step { parsing .sFin [] 1 1 with outcome := some .packetTooSmall })).map
        (fun t => (t.fsm, t.registerWord 0x04))
      = some (.idle, 0x46) := by decide

/-- HO-1. -/
theorem test_set_ctrl :
    (nextOf (exec (.setCtrl 4) State.reset)).map (fun t => (t.registerWord 0x00, t.fsm, t.irq))
      = some (4, .idle, false) := by decide

/-- HO-8 and R25: one write of 3 starts a strict parse. -/
theorem test_start :
    (nextOf (exec (.start 3) State.reset)).map (fun t => (t.registerWord 0x00, t.registerWord 0x04, t.dp.strict))
      = some (2, 1, true) := by decide

/-- HO-15. -/
theorem test_start_too_large :
    refusalOf (exec (.start 1) { State.reset with params := ⟨256, .interleaved, 0⟩, regs := { Regs.zero with pktLen := 300 } })
      = some (.startLenTooLarge 300) := by decide

/-- HO-3. -/
theorem test_ack_done :
    (nextOf (exec (.ackDone 2) { State.reset with regs := { Regs.zero with status := ⟨true, true, 4⟩ } })).map
        (fun t => t.registerWord 0x04)
      = some 0x44 := by decide

/-- HO-5. -/
theorem test_set_len :
    (nextOf (exec (.setLen 0x10006) State.reset)).map (fun t => t.registerWord 0x08) = some 6 := by decide

/-- HO-6. -/
theorem test_write_byte :
    (nextOf (exec (.writePkt 0 (.byte 0xFC)) State.reset)).map (·.pktBuf) = some [(0, 0xFC)] := by decide

/-- HO-7: a word is written little-endian; and of a word at the end of a six-cell buffer two bytes land (R65). -/
theorem test_write_word :
    (nextOf (exec (.writePkt 0 (.word 0x221100FC)) State.reset)).map (·.pktBuf)
        = some [(0, 0xFC), (1, 0x00), (2, 0x11), (3, 0x22)]
      ∧ (nextOf (exec (.writePkt 4 (.word 0x221100FC)) { State.reset with params := ⟨6, .interleaved, 0⟩ })).map (·.pktBuf)
        = some [(4, 0xFC), (5, 0x00)] := by decide

/-- HO-12, HO-13, HO-14: host accesses that are no command. -/
theorem test_odd_accesses :
    refusalOf (step (withHost (.write 0 16 1) State.reset)) = some (.registerAccess 0 16)
      ∧ (nextOf (step (withHost (.read 0x24 32) { State.reset with busData := 5 }))).map (·.busData) = some 0
      ∧ (nextOf (step (withHost (.write 0x0C 32 0xFFFFFFFF) State.reset))).map (fun t => t.registerWord 0x0C)
        = some 0 := by decide

/-- RS-2: a reset during a parse: STATUS reads 0, and the descriptor stays. -/
theorem test_reset_in_parse :
    (nextOf (step (withHost (.setRst true) { after 1 (parsing .sC1 [0x01] 3 1) with sink := [⟨1, 1⟩] }))).map
        (fun t => (t.registerWord 0x04, t.sink, t.fsm))
      = some (0, [⟨1, 1⟩], .idle) := by decide

/-- `withFetchWord` makes the next step run the word: START, and the TOC byte 0x08 as CFG_01. -/
theorem test_fetch_word :
    (nextOf (step (State.reset.withFetchWord 32 1))).map (·.fsm) = some .sToc
      ∧ decodeTableWord 8 0x08 = some .cfg01
      ∧ (nextOf (step (State.reset.withFetchWord 8 0x08))).map (fun t => t.regs.tocInfo.config) = some 1 := by decide

/-! ### Witnesses: concrete states and operands that meet the hypotheses of the obligations

A witness names its obligation. Where the obligation has several clauses, the witness meets the hypotheses of each, at
the values where clauses meet. -/

theorem blockTurn_of_no_host {s : State} (h : s.host = []) : BlockTurn s := fun _ _ h' => by simp [h] at h'

/-- The hypotheses of `StepRunsTheDecodedField`. -/
def Awaits (s : State) (f : Format) (p stop : Nat) (used : List Byte) (i : Instr) : Prop :=
  s.port = none ∧ s.rst = false ∧ BlockTurn s ∧ awaitedField s = some (f, p, stop) ∧ p + used.length ≤ stop
    ∧ StandsAt s p used ∧ decodeField f used = .ok (i, [])

theorem awaits_of_no_host {s : State} {f : Format} {p stop : Nat} {used : List Byte} {i : Instr}
    (h : s.port = none ∧ s.rst = false ∧ s.host = [] ∧ awaitedField s = some (f, p, stop) ∧ p + used.length ≤ stop)
    (hm : ∀ k, k < used.length → Memory.read s.pktBuf (p + k) = used[k]?) (hd : fieldOf f used = some i) :
    Awaits s f p stop used i := by
  refine ⟨h.1, h.2.1, blockTurn_of_no_host h.2.2.1, h.2.2.2.1, h.2.2.2.2, hm, ?_⟩
  unfold fieldOf at hd
  split at hd
  · rename_i heq; rw [heq]; simpa using hd
  · cases hd

theorem witness_DecodeEncodeRoundTrip :
    (Instr.writePkt 12 (.word 1)).wellFormed = true
      ∧ ∀ j v, Instr.writePkt 12 (.word 1) = .writePkt j v → j.toNat < 13 := by
  refine ⟨by decide, fun j v h => ?_⟩
  cases h
  decide

theorem witness_LengthFieldHasOneEncoding :
    (251#8).toNat ≤ 251 ∧ 252 ≤ (252#8).toNat
      ∧ (Instr.len1 251).wellFormed = true ∧ lenRowValue (.len1 251) = some (251, 1)
      ∧ (Instr.len2 255 255).wellFormed = true ∧ lenRowValue (.len2 255 255) = some (1275, 2) := by decide

theorem witness_ExplicitFrameNeverTooBig :
    (Instr.len2 255 255).wellFormed = true ∧ lenRowValue (.len2 255 255) = some (1275, 2)
      ∧ (strictly (parsing .sC2 [] 1278 1)).outcome ≠ some .frameTooBig
      ∧ ∃ t, exec (.len2 255 255) (strictly (parsing .sC2 [] 1278 1)) = .next t :=
  ⟨by decide, by decide, by decide, _, rfl⟩

theorem witness_StepRunsTheDecodedField_toc : Awaits (parsing .sToc [0x00] 1 0) .tocConfig 0 1 [0x00] .cfg00 :=
  awaits_of_no_host (by decide) (by decide) (by decide)

theorem witness_StepRunsTheDecodedField_header : Awaits (parsing .sC3h [3, 0x82] 2 1) .c3h 1 2 [0x82] (.c3Vbr 2) :=
  awaits_of_no_host (by decide) (by decide) (by decide)

theorem witness_StepRunsTheDecodedField_len1 : Awaits (parsing .sC2 [2, 251] 2 1) .len 1 2 [251] (.len1 251) :=
  awaits_of_no_host (by decide) (by decide) (by decide)

theorem witness_StepRunsTheDecodedField_len2 :
    Awaits (code3 .sC3f true false 2 0 0 [3, 0x82, 252, 0] 4 2) .len 2 4 [252, 0] (.len2 252 0) :=
  awaits_of_no_host (by decide) (by decide) (by decide)

theorem witness_StepRunsTheDecodedField_pad :
    Awaits (code3 .sC3p false true 1 0 0 [3, 0x41, 255] 3 2) .pad 2 3 [255] .padCont :=
  awaits_of_no_host (by decide) (by decide) (by decide)

/-- With a host action that waits. -/
theorem witness_StepRunsTheDecodedField_host_waits :
    BlockTurn { parsing .sToc [0x00] 1 0 with host := [⟨1, .clearSink⟩] } := by
  intro e rest h
  cases h
  decide

theorem witness_StepRunsTheCurrentRow :
    (∀ s ∈ [atRow .stereo 4 (parsing .sToc [4] 1 0), atRow .code 4 (parsing .sToc [4] 1 0), parsing .sC0 [0] 1 1,
        parsing .sC1 [1] 1 1, after 1 (parsing .sC2 [2, 0] 2 2), code3 .sC3p true false 2 0 0 [] 2 2,
        code3 .sC3f true true 1 1 0 [] 3 3],
      s.port = none ∧ s.rst = false ∧ s.host = [] ∧ s.expectsLen = false)
    ∧ (atRow .stereo 4 (parsing .sToc [4] 1 0)).tocPhase = .stereo
    ∧ (atRow .code 4 (parsing .sToc [4] 1 0)).tocPhase = .code
    ∧ (code3 .sC3p true false 2 0 0 [] 2 2).dp.padf = false
    ∧ (code3 .sC3f true true 1 1 0 [] 3 3).fsm = .sC3f := by decide

theorem witness_StepRunsTheHostCommand :
    (withHost (.write 0x10001 8 0x22) State.reset).host
        = [⟨0, .write ((withHost (.write 0x10001 8 0x22) State.reset).params.base + 0x10001) 8 0x22⟩]
      ∧ decodeBus 65535 0x10001 8 0x22 = .ok (.writePkt 1 (.byte 0x22)) := ⟨rfl, rfl⟩

/-- The second byte of a length field was never written. -/
theorem witness_UnwrittenFieldByteFaults_second :
    let s := parsing .sC2 [2, 252] 3 1
    s.port = none ∧ s.rst = false ∧ s.host = [] ∧ awaitedField s = some (.len, 1, 3) ∧ 1 + 1 < 3
      ∧ Memory.read s.pktBuf 1 = some 252 ∧ 252 ≤ (252#8).toNat ∧ Memory.read s.pktBuf (1 + 1) = none := by decide

theorem witness_UnwrittenFieldByteFaults :
    let s := code3 .sC3f true false 2 0 0 [3, 0x82] 3 2
    s.port = none ∧ s.rst = false ∧ s.host = [] ∧ awaitedField s = some (.len, 2, 3)
      ∧ Memory.read s.pktBuf 2 = none := by decide

/-- An empty window; a first byte of 251; of 252 with no second byte in the window; of 252 with one. -/
theorem witness_LengthFieldDecoded :
    awaitedField (parsing .sC2 [2] 1 1) = some (.len, 1, 1)
      ∧ awaitedField (parsing .sC2 [2, 251] 2 1) = some (.len, 1, 2)
      ∧ Memory.read (parsing .sC2 [2, 251] 2 1).pktBuf 1 = some 251
      ∧ awaitedField (parsing .sC2 [2, 252, 0] 2 1) = some (.len, 1, 2)
      ∧ Memory.read (parsing .sC2 [2, 252, 0] 2 1).pktBuf 1 = some 252
      ∧ awaitedField (parsing .sC2 [2, 252, 0] 3 1) = some (.len, 1, 3)
      ∧ Memory.read (parsing .sC2 [2, 252, 0] 3 1).pktBuf 2 = some 0
      ∧ ∀ s ∈ [parsing .sC2 [2] 1 1, parsing .sC2 [2, 251] 2 1, parsing .sC2 [2, 252, 0] 2 1,
          parsing .sC2 [2, 252, 0] 3 1], s.port = none ∧ s.rst = false ∧ s.host = [] := by decide

theorem witness_ConfigurationRowsWriteTocInfo :
    Working .sToc (parsing .sToc [0xF8] 1 0) ∧ (parsing .sToc [0xF8] 1 0).tocPhase = .config :=
  ⟨⟨rfl, rfl, rfl⟩, rfl⟩

theorem witness_StereoAndCodeRowsWriteTocInfo :
    Working .sToc (atRow .stereo 7 (parsing .sToc [7] 1 0)) ∧ Working .sToc (atRow .code 7 (parsing .sToc [7] 1 0))
      ∧ (Instr.tocCode3, 3#2, Fsm.sC3h)
        ∈ [(Instr.tocCode0, 0#2, Fsm.sC0), (.tocCode1, 1#2, .sC1), (.tocCode2, 2#2, .sC2), (.tocCode3, 3#2, .sC3h)] :=
  ⟨⟨rfl, rfl, rfl⟩, ⟨rfl, rfl, rfl⟩, by decide⟩

/-- An empty packet, and a packet of one byte. -/
theorem witness_TocDecodeOfAByte :
    (Working .sToc (parsing .sToc [] 0 0) ∧ (parsing .sToc [] 0 0).tocPhase = .config
        ∧ (parsing .sToc [] 0 0).host = [] ∧ (parsing .sToc [] 0 0).dp.len = 0)
      ∧ (Working .sToc (parsing .sToc [0xFC] 1 0) ∧ (parsing .sToc [0xFC] 1 0).dp.len ≠ 0
        ∧ Memory.read (parsing .sToc [0xFC] 1 0).pktBuf 0 = some 0xFC) :=
  ⟨⟨⟨rfl, rfl, rfl⟩, rfl, rfl, rfl⟩, ⟨rfl, rfl, rfl⟩, by decide, by decide⟩

/-- Strict with 1276 bytes, strict with 1275, lenient with 1276. -/
theorem witness_EmitChecksThenAppends :
    (strictly (parsing .sC0 [0] 1277 1)).dp.strict = true ∧ 1275 < 1276
      ∧ (parsing .sC0 [0] 1277 1).dp.strict = false ∧ 1275 ≤ 1275 ∧ Undisturbed (parsing .sC0 [0] 1277 1) :=
  ⟨rfl, by decide, rfl, by decide, rfl, rfl, rfl⟩

theorem witness_StalledSinkHoldsTheBlock :
    let s := { parsing .sC0 [0] 1 1 with
      port := some ⟨1, 0⟩, sinkReady := false, dp := { (parsing .sC0 [0] 1 1).dp with fidx := 1 } }
    PortInv s ∧ s.port = some ⟨1, 0⟩ ∧ s.sinkReady = false ∧ s.rst = false ∧ s.host = [] := by
  refine ⟨⟨rfl, rfl, fun _ => .inl rfl⟩, rfl, rfl, rfl, rfl⟩

/-- LEN = 1277 strict, LEN = 1276 strict, and a frame already emitted. -/
theorem witness_Code0OneFrame :
    ∀ s ∈ [strictly (parsing .sC0 [0] 1277 1), strictly (parsing .sC0 [0] 1276 1), after 1 (parsing .sC0 [0] 1 1)],
      Working .sC0 s := by
  intro s hs
  simp at hs
  rcases hs with rfl | rfl | rfl <;> exact ⟨rfl, rfl, rfl⟩

theorem witness_Code0OneFrame_lengths :
    1275 < (strictly (parsing .sC0 [0] 1277 1)).dp.len.toNat - 1
      ∧ (strictly (parsing .sC0 [0] 1276 1)).dp.len.toNat - 1 ≤ 1275
      ∧ (after 1 (parsing .sC0 [0] 1 1)).dp.fidx ≠ 0 := by decide

/-- LEN = 2552 (even), 2553 strict (h = 1276), 2551 strict (h = 1275), with no frame, one and two emitted. -/
theorem witness_Code1TwoEqualFrames :
    ∀ n ∈ [0, 1, 2], ∀ len ∈ [2551, 2552, 2553], Working .sC1 (after n (strictly (parsing .sC1 [1] len 1))) :=
  fun _ _ _ _ => ⟨rfl, rfl, rfl⟩

theorem witness_Code1TwoEqualFrames_lengths :
    (2552 % 2 = 0 ∧ 2553 % 2 = 1 ∧ 1275 < (2553 - 1) / 2 ∧ 2551 % 2 = 1 ∧ (2551 - 1) / 2 ≤ 1275)
      ∧ (after 2 (strictly (parsing .sC1 [1] 2551 1))).dp.fidx ≠ 1
      ∧ (after 1 (strictly (parsing .sC1 [1] 2553 1))).dp.fidx = 1 := by decide

/-- A missing field, a field cut short, a frame 0 one byte too long, one that just fits, frame 1 of 1276 and 1275 bytes
in strict mode, and both frames emitted. -/
theorem witness_Code2ExplicitThenRest :
    (∀ n, ∀ len, Working .sC2 (after n (strictly (parsing .sC2 [2, 252, 0] len 2))))
      ∧ (Instr.len2 252 0).wellFormed = true ∧ lenRowValue (.len2 252 0) = some (252, 2)
      ∧ (parsing .sC2 [2, 252, 0] 1 2).dp.len.toNat ≤ 1
      ∧ ((parsing .sC2 [2, 252, 0] 2 2).dp.len.toNat = 2
        ∧ Memory.read (parsing .sC2 [2, 252, 0] 2 2).pktBuf 1 = some 252 ∧ 252 ≤ (252#8).toNat)
      ∧ (parsing .sC2 [2, 252, 0] 254 2).dp.len.toNat - (1 + 2) < 252
      ∧ 252 ≤ (parsing .sC2 [2, 252, 0] 255 2).dp.len.toNat - (1 + 2)
      ∧ (after 1 (strictly (parsing .sC2 [2, 0] 1278 2))).dp.len.toNat
        - (after 1 (strictly (parsing .sC2 [2, 0] 1278 2))).dp.pos.toNat = 1276
      ∧ (after 1 (strictly (parsing .sC2 [2, 0] 1277 2))).dp.len.toNat
        - (after 1 (strictly (parsing .sC2 [2, 0] 1277 2))).dp.pos.toNat = 1275
      ∧ (after 2 (parsing .sC2 [2, 0] 2 2)).dp.fidx ≠ 1 :=
  ⟨fun _ _ => ⟨rfl, rfl, rfl⟩, by decide, by decide, by decide, by decide, by decide, by decide, by decide, by decide,
    by decide⟩

theorem witness_Code3HeaderRead :
    (Working .sC3h (parsing .sC3h [3] 1 1) ∧ (parsing .sC3h [3] 1 1).dp.len.toNat < 2)
      ∧ (Working .sC3h (parsing .sC3h [3, 0x82] 2 1) ∧ 2 ≤ (parsing .sC3h [3, 0x82] 2 1).dp.len.toNat
        ∧ Memory.read (parsing .sC3h [3, 0x82] 2 1).pktBuf 1 = some 0x82 ∧ (parsing .sC3h [3, 0x82] 2 1).host = []) :=
  ⟨⟨⟨rfl, rfl, rfl⟩, by decide⟩, ⟨rfl, rfl, rfl⟩, by decide, by decide, rfl⟩

/-- M = 0; 2.5 ms frames, 49 of them (122.5 ms) and 48 (120 ms). -/
theorem witness_Code3StrictChecks :
    Working .sC3h (strictly (parsing .sC3h [0x83, 0] 2 1))
      ∧ (strictly (parsing .sC3h [0x83, 0] 2 1)).dp.strict = true ∧ (49#6) ≠ 0
      ∧ 240 < (strictly (parsing .sC3h [0x83, 0] 2 1)).dp.dur.half * (49#6).toNat
      ∧ (strictly (parsing .sC3h [0x83, 0] 2 1)).dp.dur.half * (48#6).toNat ≤ 240 :=
  ⟨⟨rfl, rfl, rfl⟩, by decide, by decide, by decide, by decide⟩

theorem witness_Code3RegionWithoutPadding :
    let s := code3 .sC3p true false 2 0 0 [] 6 2
    Working .sC3p s ∧ s.c3Is true false 2 = true ∧ s.dp.padData = 0 :=
  ⟨⟨rfl, rfl, rfl⟩, by decide, by decide⟩

/-- The part of `DatapathInv` that does not look at the FSM state. -/
abbrev Widths (s : State) : Prop :=
  s.params.ok = true ∧ s.dp.len.toNat ≤ s.params.pktMax ∧ s.dp.pos.toNat ≤ s.dp.len.toNat
    ∧ s.dp.regionEnd.toNat ≤ s.dp.len.toNat ∧ s.dp.lsum.toNat = (s.dp.lens.map BitVec.toNat).sum
    ∧ s.dp.lens.length ≤ 62 ∧ ∀ n ∈ s.dp.lens, n.toNat ≤ 1275

theorem datapathInv_of {s : State} (h : Widths s) (hs : StageInv s) : DatapathInv s :=
  ⟨h.1, h.2.1, h.2.2.1, h.2.2.2.1, h.2.2.2.2.1, h.2.2.2.2.2.1, h.2.2.2.2.2.2, hs⟩

/-- The rest of `OpfInv` where nothing is presented and no frame is counted. -/
theorem opfInv_of {s : State} (hm : Memory.wf s.pktBuf = true ∧ Memory.inside s.params.pktMax s.pktBuf = true)
    (hr : s.regs.status = ⟨false, false, 0⟩ ∧ s.regs.numFrames = s.dp.nf ∧ s.dp.nf.toNat = s.dp.fidx.toNat
      ∧ s.port = none) (hd : DatapathInv s) : OpfInv s := by
  refine ⟨hm, ⟨?_, ?_, ?_⟩, ⟨hr.2.1, ?_, ?_⟩, hd⟩ <;> simp [hr.1, hr.2.2.1, hr.2.2.2]

/-- A chain byte of 0 just fits `LEN = 3`; 1 and 0xFF do not. -/
theorem witness_PaddingChainByte :
    ∀ b ∈ [0#8, 1#8, 255#8], DatapathInv (code3 .sC3p false true 1 0 0 [3, 0x41, b] 3 2)
      ∧ Working .sC3p (code3 .sC3p false true 1 0 0 [3, 0x41, b] 3 2)
      ∧ Memory.read (code3 .sC3p false true 1 0 0 [3, 0x41, b] 3 2).pktBuf 2 = some b := by
  intro b hb
  simp at hb
  rcases hb with rfl | rfl | rfl <;>
    exact ⟨datapathInv_of (by decide) ⟨rfl, rfl, rfl, rfl, by decide⟩, ⟨rfl, rfl, rfl⟩, by decide⟩

theorem witness_PaddingChainByte_clauses :
    (code3 .sC3p false true 1 0 0 [3, 0x41, 0] 3 2).dp.padf = true
      ∧ (code3 .sC3p false true 1 0 0 [3, 0x41, 0] 3 2).dp.pos.toNat = 2 ∧ 2 < 3
      ∧ 0 + 1 + (0 + 0) ≤ 3 - 2 ∧ 3 - 2 < 0 + 1 + (0 + 1) ∧ 3 - 2 < 0 + 1 + (0 + 254) := by decide

/-- No byte is left, and a chain that goes on: `LEN` 2 and 259. -/
theorem witness_PaddingChainByte_ends :
    (DatapathInv (code3 .sC3p false true 1 0 0 [3, 0x41] 2 2)
        ∧ (code3 .sC3p false true 1 0 0 [3, 0x41] 2 2).dp.len.toNat
          ≤ (code3 .sC3p false true 1 0 0 [3, 0x41] 2 2).dp.pos.toNat)
      ∧ DatapathInv (code3 .sC3p false true 1 0 0 [3, 0x41, 255] 259 2) ∧ 0 + 1 + (0 + 254) ≤ 259 - 2 :=
  ⟨⟨datapathInv_of (by decide) ⟨rfl, rfl, rfl, rfl, by decide⟩, by decide⟩,
    datapathInv_of (by decide) ⟨rfl, rfl, rfl, rfl, by decide⟩, by decide⟩

theorem witness_PaddingResultRegisters :
    (code3 .sC3p false true 1 1 2 [] 6 3).dp.padHdr.toNat + (code3 .sC3p false true 1 1 2 [] 6 3).dp.padData.toNat
      ≤ (code3 .sC3p false true 1 1 2 [] 6 3).dp.len.toNat := by decide

theorem frameRegion_stage {s : State} (hf : s.fsm = .sC3f) (h : FrameRegionInv s) : StageInv s := by
  unfold StageInv
  rw [hf]
  exact h

theorem witness_Code3NoFramesCompletes :
    let s := code3 .sC3f false true 0 1 0 [3, 0x40, 0] 3 3
    OpfInv s ∧ Working .sC3f s ∧ s.c3Is false true 0 = true :=
  ⟨opfInv_of (by decide) (by decide) (datapathInv_of (by decide) (frameRegion_stage rfl (by unfold FrameRegionInv; decide))),
    ⟨rfl, rfl, rfl⟩, by decide⟩

/-- R = 3 and M = 2; M = 1 with 1276 and with 1275 bytes in strict mode; and the last frame emitted. -/
theorem witness_Code3CbrFrames :
    DatapathInv (after 0 (strictly (code3 .sC3f false false 2 0 0 [] 5 2)))
      ∧ DatapathInv (after 0 (strictly (code3 .sC3f false false 1 0 0 [] 1278 2)))
      ∧ DatapathInv (after 0 (strictly (code3 .sC3f false false 1 0 0 [] 1277 2)))
      ∧ DatapathInv (after 1 (strictly (code3 .sC3f false false 1 0 0 [] 1277 1277))) :=
  ⟨datapathInv_of (by decide) (frameRegion_stage rfl (by unfold FrameRegionInv; decide)),
    datapathInv_of (by decide) (frameRegion_stage rfl (by unfold FrameRegionInv; decide)),
    datapathInv_of (by decide) (frameRegion_stage rfl (by unfold FrameRegionInv; decide)),
    datapathInv_of (by decide) (frameRegion_stage rfl (by unfold FrameRegionInv; decide))⟩

theorem witness_Code3CbrFrames_clauses :
    (∀ n m len pos, Working .sC3f (after n (strictly (code3 .sC3f false false m 0 0 [] len pos))))
      ∧ (after 0 (strictly (code3 .sC3f false false 2 0 0 [] 5 2))).c3Is false false 2 = true ∧ (5 - 2) % 2 ≠ 0
      ∧ (1278 - 2) % 1 = 0 ∧ 1275 < (1278 - 2) / 1 ∧ (1277 - 2) / 1 ≤ 1275
      ∧ (after 1 (strictly (code3 .sC3f false false 1 0 0 [] 1277 1277))).dp.fidx = 1 :=
  ⟨fun _ _ _ _ => ⟨rfl, rfl, rfl⟩, by decide, by decide, by decide, by decide, by decide, by decide⟩

/-- M = 2: a field cut short by the region's end; frame 0 of 252 bytes one byte too long and just fitting; the last
frame of 1276 and of 1275 bytes in strict mode; both emitted. -/
theorem witness_Code3VbrInterleavedFrames :
    (∀ n len pos, Working .sC3f (after n (strictly (code3 .sC3f true false 2 0 0 [3, 0x82, 252, 0] len pos))))
      ∧ (strictly (code3 .sC3f true false 2 0 0 [3, 0x82, 252, 0] 255 2)).c3Is true false 2 = true
      ∧ (strictly (code3 .sC3f true false 2 0 0 [3, 0x82, 252, 0] 255 2)).params.layout = .interleaved
      ∧ (Instr.len2 252 0).wellFormed = true ∧ lenRowValue (.len2 252 0) = some (252, 2)
      ∧ ((code3 .sC3f true false 2 0 0 [3, 0x82, 252, 0] 3 2).dp.regionEnd.toNat = 2 + 1
        ∧ Memory.read (code3 .sC3f true false 2 0 0 [3, 0x82, 252, 0] 3 2).pktBuf 2 = some 252)
      ∧ (code3 .sC3f true false 2 0 0 [3, 0x82, 252, 0] 255 2).dp.regionEnd.toNat < 2 + 2 + 252
      ∧ 2 + 2 + 252 ≤ (code3 .sC3f true false 2 0 0 [3, 0x82, 252, 0] 256 2).dp.regionEnd.toNat
      ∧ (after 1 (code3 .sC3f true false 2 0 0 [] 1279 3)).dp.regionEnd.toNat - 3 = 1276
      ∧ (after 1 (code3 .sC3f true false 2 0 0 [] 1278 3)).dp.regionEnd.toNat - 3 = 1275
      ∧ (after 2 (code3 .sC3f true false 2 0 0 [] 1278 3)).dp.fidx = 2 :=
  ⟨fun _ _ _ => ⟨rfl, rfl, rfl⟩, by decide, by decide, by decide, by decide, by decide, by decide, by decide, by decide,
    by decide, by decide⟩

/-- A grouped parse with M = 2, its one length `l` read, in a packet of `len` bytes, with `n` frames emitted. -/
def groupedAfter (n l len pos : Nat) : State :=
  let s := grouped (after n (strictly (code3 .sC3f true false 2 0 0 [3, 0x82] len pos)))
  { s with dp := { s.dp with lens := [BitVec.ofNat 11 l], lsum := word18 l } }

/-- No length read yet: the window is empty; a first byte of 251 in it. -/
theorem witness_Code3VbrGroupedFrames_reading :
    let s := grouped (code3 .sC3f true false 2 0 0 [3, 0x82, 251] 3 2)
    let e := grouped (code3 .sC3f true false 2 0 0 [3, 0x82] 2 2)
    (DatapathInv s ∧ Working .sC3f s ∧ s.params.layout = .grouped ∧ s.c3Is true false 2 = true
        ∧ (Instr.len1 251).wellFormed = true ∧ lenRowValue (.len1 251) = some (251, 1)
        ∧ s.dp.lens.length + 1 < (2#6).toNat)
      ∧ (DatapathInv e ∧ e.dp.regionEnd.toNat ≤ e.dp.pos.toNat ∧ e.host = []) := by
  exact ⟨⟨datapathInv_of (by decide) (frameRegion_stage rfl (by unfold FrameRegionInv; decide)), ⟨rfl, rfl, rfl⟩, rfl,
    by decide, by decide, by decide, by decide⟩,
    datapathInv_of (by decide) (frameRegion_stage rfl (by unfold FrameRegionInv; decide)), by decide, rfl⟩

/-- The sum one too large and just fitting; frame 0 emitted, with 1276 and 1275 bytes left in strict mode; both
emitted. -/
theorem witness_Code3VbrGroupedFrames :
    (DatapathInv (groupedAfter 0 5 7 3) ∧ DatapathInv (groupedAfter 0 4 7 3))
      ∧ (groupedAfter 0 5 7 3).dp.regionEnd.toNat < 3 + 5 ∧ 3 + 4 ≤ (groupedAfter 0 4 7 3).dp.regionEnd.toNat
      ∧ (groupedAfter 0 4 7 3).dp.lens.length + 1 = (2#6).toNat
      ∧ (groupedAfter 0 4 7 3).dp.lens[(groupedAfter 0 4 7 3).dp.fidx.toNat]? = some 4 := by
  exact ⟨⟨datapathInv_of (by decide) (frameRegion_stage rfl (by unfold FrameRegionInv; decide)),
    datapathInv_of (by decide) (frameRegion_stage rfl (by unfold FrameRegionInv; decide))⟩, by decide, by decide,
    by decide, by decide⟩

theorem witness_Code3VbrGroupedFrames_last :
    (DatapathInv (groupedAfter 1 0 1279 3) ∧ DatapathInv (groupedAfter 1 0 1278 3))
      ∧ (groupedAfter 1 0 1279 3).dp.fidx.toNat + 1 = (2#6).toNat ∧ (groupedAfter 1 0 1279 3).dp.strict = true
      ∧ (groupedAfter 1 0 1279 3).dp.regionEnd.toNat - 3 = 1276
      ∧ (groupedAfter 1 0 1278 3).dp.regionEnd.toNat - 3 = 1275
      ∧ (DatapathInv (groupedAfter 2 0 1278 3) ∧ (groupedAfter 2 0 1278 3).dp.fidx = 2) := by
  refine ⟨⟨?_, ?_⟩, by decide, by decide, by decide, by decide, ?_, by decide⟩ <;>
    exact datapathInv_of (by decide) (frameRegion_stage rfl (by unfold FrameRegionInv; decide))

theorem witness_FinishReportsTheOutcome :
    Working .sFin (parsing .sFin [0] 1 1) ∧ (parsing .sFin [0] 1 1).host = [] ∧ (parsing .sFin [0] 1 1).outcome = none :=
  ⟨⟨rfl, rfl, rfl⟩, rfl, rfl⟩

theorem witness_SetCtrlWritesItsFields :
    State.reset.rst = false ∧ flagBit (6#32) 0 = false ∧ flagBit (7#32) 0 = true
      ∧ ∃ t, exec (.start 7) State.reset = .next t := ⟨rfl, by decide, by decide, _, rfl⟩

/-- A START in IDLE with LEN = PKT_MAX and with one more, and a START while busy. -/
theorem witness_StartBeginsAParse :
    let s : Nat → State := fun n =>
      { State.reset with params := ⟨256, .interleaved, 0⟩, regs := { Regs.zero with pktLen := word16 n } }
    ((s 256).rst = false ∧ (s 256).fsm = .idle ∧ (s 256).regs.pktLen.toNat ≤ (s 256).params.pktMax)
      ∧ ((s 257).fsm = .idle ∧ (s 257).params.pktMax < (s 257).regs.pktLen.toNat)
      ∧ ((parsing .sC0 [0] 1 1).rst = false ∧ (parsing .sC0 [0] 1 1).fsm ≠ .idle) := by decide

theorem witness_AckDoneClearsDone :
    State.reset.rst = false ∧ flagBit (2#32) 1 = true ∧ flagBit (0xFFFFFFFD#32) 1 = false := by decide

theorem witness_SetLenStoresPktLen : State.reset.rst = false ∧ (parsing .sC0 [0] 1 1).rst = false := by decide

/-- In IDLE, a word at the last cells of the buffer; and while busy. -/
theorem witness_WritePktWritesItsCells :
    State.reset.rst = false ∧ State.reset.fsm = .idle ∧ (65532#16).toNat + 3 = State.reset.params.pktMax
      ∧ (parsing .sC0 [0] 1 1).rst = false ∧ (parsing .sC0 [0] 1 1).fsm ≠ .idle := by decide

/-- Register 0x08 while busy, 0x0C and 0x20 in IDLE, the last offset of the space, and 0x0C while busy. -/
theorem witness_RegisterReads :
    (∀ o ∈ [0x0C, 0x20, 0xFFFC], (withHost (.read o 32) State.reset).host = [⟨0, .read (0 + o) 32⟩] ∧ o % 4 = 0
        ∧ o < 0x10000 ∧ (withHost (.read o 32) State.reset).busy = false)
      ∧ (∀ o ∈ [0x08, 0x0C], (withHost (.read o 32) (parsing .sC0 [0] 1 1)).rst = false
        ∧ (withHost (.read o 32) (parsing .sC0 [0] 1 1)).busy = true) := by decide

/-- Offset 0x24, offset 0x0C, and STATUS with bit 1 = 0. -/
theorem witness_ReservedAndReadOnlyWrites :
    ∀ c ∈ [(0x24, 1#32), (0x0C, 1#32), (0x04, 0xFFFFFFFD#32)],
      (withHost (.write c.1 32 c.2) State.reset).host = [⟨0, .write (State.reset.params.base + c.1) 32 c.2⟩]
        ∧ c.1 % 4 = 0 ∧ c.1 < 0x10000
        ∧ (0x24 ≤ c.1 ∨ 0x0C ≤ c.1 ∨ (c.1 = 0x04 ∧ flagBit c.2 1 = false)) := by decide

/-- Window writes that reach no cell of a buffer of 256: the first such byte, the first such word, and the last byte of
the window, in IDLE and while busy. -/
theorem witness_ReservedAndReadOnlyWrites_window :
    ∀ s ∈ [State.reset, parsing .sC0 [0] 1 1], ∀ c ∈ [(0x10100, 8), (0x10100, 32), (0x1FFFF, 8)],
      let t := withHost (.write c.1 c.2 7) { s with params := ⟨256, .interleaved, 0⟩ }
      t.rst = false ∧ t.host = [⟨0, .write (t.params.base + c.1) c.2 7⟩]
        ∧ (c.2 = 8 ∨ (c.2 = 32 ∧ c.1 % 4 = 0)) ∧ 0x10000 + t.params.pktMax ≤ c.1 ∧ c.1 < 0x20000 := by decide

/-- A word over the last written cell and past the buffer of three cells, and a byte at the end of the window. -/
theorem witness_WindowReads :
    let s : State := withHost (.read 0x10000 32)
      { State.reset with params := ⟨3, .interleaved, 0⟩, pktBuf := [(2, 0xAB)] }
    s.rst = false ∧ s.host = [⟨0, .read (s.params.base + 0x10000 + 0) 32⟩] ∧ 0 % 4 = 0
      ∧ Memory.read s.pktBuf (0 + 2) = some 0xAB ∧ 0 + 2 < s.params.pktMax ∧ s.params.pktMax ≤ 0 + 3
      ∧ 8 * 3 < 32 ∧ 0xFFFF < 0x10000 := by decide

/-- A 16-bit register access, a 32-bit one at the last odd place of the space; a window word off its boundary. -/
theorem witness_OddAccessesAreRefused :
    ∀ c ∈ [(0, 16), (0xFFFE, 32), (0x10002, 32), (0x1FFFF, 16)],
      (withHost (.write c.1 c.2 0) State.reset).host = [⟨0, .write (State.reset.params.base + c.1) c.2 0⟩]
        ∧ State.reset.rst = false
        ∧ (c.1 < 0x10000 ∧ ¬ (c.2 = 32 ∧ c.1 % 4 = 0)
          ∨ 0x10000 ≤ c.1 ∧ c.1 < 0x20000 ∧ ¬ (c.2 = 8 ∨ (c.2 = 32 ∧ c.1 % 4 = 0))) := by decide

theorem witness_ClearSink :
    (withHost .clearSink State.reset).host = [⟨0, .clearSink⟩] ∧ (withHost .clearSink State.reset).fsm = .idle
      ∧ (withHost .clearSink (parsing .sC0 [0] 1 1)).fsm ≠ .idle := by decide

theorem witness_ResetEffect :
    (withHost (.setRst true) (parsing .sC1 [1] 3 1)).host = [⟨0, .setRst true⟩]
      ∧ true ≠ (withHost (.setRst true) (parsing .sC1 [1] 3 1)).rst := by decide

theorem witness_HeldInReset :
    BlockTurn { parsing .sC1 [1] 3 1 with rst := true } ∧ { parsing .sC1 [1] 3 1 with rst := true }.rst = true
      ∧ (withHost (.write 0x1FFFC 32 1) { State.reset with rst := true }).host
        = [⟨0, .write (State.reset.params.base + 0x1FFFC) 32 1⟩] :=
  ⟨blockTurn_of_no_host rfl, rfl, rfl⟩

theorem witness_IrqIsDoneAndEnabled : State.reset.rst = false := rfl

theorem witness_HostWaits :
    let s : Bool → HostAction → State := fun d a =>
      withHost a { State.reset with regs := { Regs.zero with ctrl := ⟨false, true⟩, status := ⟨d, false, 0⟩ } }
    (s true .waitDone).rst = false ∧ (s true .waitDone).host = [⟨0, .waitDone⟩]
      ∧ (s true .waitDone).regs.status.done = true ∧ (s false .waitDone).regs.status.done = false
      ∧ (s true .waitIrq).irq = true ∧ (s false .waitIrq).irq = false := by decide

theorem witness_PacketRowFrame :
    isPacketRow .tocCode0 = true ∧ ∃ t, exec .tocCode0 (parsing .sC0 [0] 3 1) = .next t := ⟨rfl, _, rfl⟩

theorem witness_HostCommandFrame :
    isPacketRow (.setLen 5) = false ∧ (parsing .sC0 [0] 3 1).busy = true
      ∧ ∃ t, exec (.setLen 5) (parsing .sC0 [0] 3 1) = .next t := ⟨rfl, rfl, _, rfl⟩

theorem witness_SinkOnlyAppended :
    ∃ t, step { parsing .sC0 [0] 3 1 with port := some ⟨1, 2⟩ } = .next t ∧ t.sink = [⟨1, 2⟩] := ⟨_, rfl, rfl⟩

theorem witness_BlockNeverWritesPacket :
    ∃ t, step (withHost (.write 0x10000 8 7) State.reset) = .next t ∧ t.pktBuf ≠ State.reset.pktBuf :=
  ⟨_, rfl, by decide⟩

/-- Cell 2 of a packet of two bytes is written in one buffer and not in the other. -/
theorem witness_CellsPastLenAreNotRead :
    let s := parsing .sC2 [2, 0] 2 1
    s.dp.regionEnd.toNat ≤ s.dp.len.toNat ∧ s.host = []
      ∧ (∀ i, i < s.dp.len.toNat → Memory.read (mem [2, 0, 9]) i = Memory.read s.pktBuf i)
      ∧ (∃ t, step s = .next t) ∧ mem [2, 0, 9] ≠ s.pktBuf :=
  ⟨by decide, rfl, by decide, ⟨_, rfl⟩, by decide⟩

/-- A parse in its first state, with `OpfInv`: the packet `[0x00]`. -/
theorem first_state_inv : OpfInv (parsing .sToc [0x00] 1 0) :=
  opfInv_of (by decide) (by decide) (datapathInv_of (by decide) ⟨rfl, rfl, rfl, .inl rfl⟩)

theorem witness_StepKeepsInvariant :
    OpfInv (parsing .sToc [0x00] 1 0) ∧ ∃ t, step (parsing .sToc [0x00] 1 0) = .next t := ⟨first_state_inv, _, rfl⟩

theorem witness_StepKeepsMemory :
    MemoryInv (parsing .sToc [0x00] 1 0) ∧ ∃ t, step (parsing .sToc [0x00] 1 0) = .next t :=
  ⟨first_state_inv.1, _, rfl⟩

theorem witness_StepKeepsStatus :
    StatusInv (parsing .sToc [0x00] 1 0) ∧ ∃ t, step (parsing .sToc [0x00] 1 0) = .next t :=
  ⟨first_state_inv.2.1, _, rfl⟩

theorem witness_BlockNeverRefused :
    OpfInv (parsing .sToc [0x00] 1 0) ∧ BlockTurn (parsing .sToc [0x00] 1 0) :=
  ⟨first_state_inv, blockTurn_of_no_host rfl⟩

/-- With a host action that waits. -/
theorem witness_BlockNeverRefused_host_waits :
    OpfInv { parsing .sToc [0x00] 1 0 with host := [⟨1, .clearSink⟩] }
      ∧ BlockTurn { parsing .sToc [0x00] 1 0 with host := [⟨1, .clearSink⟩] } :=
  ⟨first_state_inv, witness_StepRunsTheDecodedField_host_waits⟩

theorem witness_EveryParseTerminates :
    OpfInv (parsing .sToc [0x00] 1 0) ∧ Undisturbed (parsing .sToc [0x00] 1 0) ∧ (parsing .sToc [0x00] 1 0).busy = true :=
  ⟨first_state_inv, ⟨rfl, rfl, rfl⟩, rfl⟩

theorem witness_FsmAgreesWithParse :
    let s := parsing .idle [0x02, 0x01, 0xAA, 0xBB, 0xCC] 5 0
    s.fsm = .idle ∧ PacketLoaded [0x02, 0x01, 0xAA, 0xBB, 0xCC] s ∧ Undisturbed s := by
  refine ⟨rfl, ⟨rfl, ?_⟩, rfl, rfl, rfl⟩
  intro i hi
  simp at hi
  interval_cases i <;> rfl

/-- RT-2 of 95_test_vectors.md (VB-6), and a Code 2 packet (C2-2). -/
theorem witness_RoundTripOfLengths :
    (validPacket .grouped true [0x03, 0xC2, 0x01, 0x01, 0xAA, 0xBB, 0xEE]
        ∧ (parse .grouped true [0x03, 0xC2, 0x01, 0x01, 0xAA, 0xBB, 0xEE]).c3Info.m ≠ 0)
      ∧ validPacket .interleaved false [0x02, 0x01, 0xAA, 0xBB, 0xCC] := by
  unfold validPacket
  decide

/-- C1-3 is rejected in lenient mode; CB-1 is accepted in strict mode. -/
theorem witness_StrictIsAtLeastAsRestrictive :
    ¬ validPacket .interleaved false [0x01, 0xAA]
      ∧ validPacket .interleaved true [0x03, 0x02, 0xA0, 0xA1, 0xA2, 0xA3] := by
  unfold validPacket
  decide

/-- VB-1: M = 2. -/
theorem witness_LayoutsAgreeUpToTwoFrames :
    (parse .interleaved true [0x03, 0x82, 0x01, 0xAA, 0xBB, 0xCC]).c3Info.m.toNat = 2 := by decide

end Sys2Proof.Tests
end

/-! The interrupt level (10_state.md R34), and what SET_CTRL does to it (43_validity_fsm.md R225). -/

namespace Sys2Proof.Machine

theorem State.irq_eq_true_iff (s : State) :
    s.irq = true ↔ s.regs.status.done = true ∧ s.regs.ctrl.irqEn = true := by
  simp [State.irq]

/-- DONE and IRQ_EN are both 0 at reset (R41). -/
@[simp] theorem irq_reset : State.reset.irq = false := rfl

/-- The level follows the IRQ_EN just written, with DONE as it was. -/
@[simp] theorem irq_writeCtrl (d : Word) (s : State) :
    (writeCtrl d s).irq = (s.regs.status.done && flagBit d 2) := rfl

theorem hostCommand_of_not_rst {s : State} (h : s.rst = false) (f : State → Host.Outcome State Fault Refusal) :
    hostCommand s f = f s.retire := by
  simpa [h] using hostCommand_cases s f

theorem exec_setCtrl_of_not_rst {s : State} (h : s.rst = false) (d : Word) :
    exec (.setCtrl d) s = .next (writeCtrl d s.retire) :=
  hostCommand_of_not_rst h fun s => .next (writeCtrl d s)

/-- Settles O44: the level from its two flags, SET_CTRL from its one next state. -/
theorem irqIsDoneAndEnabled : Obligations.IrqIsDoneAndEnabled := by
  refine ⟨fun s => ⟨s.irq_eq_true_iff, fun d hrst => ?_⟩, irq_reset⟩
  exact ⟨writeCtrl d s.retire, exec_setCtrl_of_not_rst hrst d, by rw [irq_writeCtrl, retire_regs]⟩

end Sys2Proof.Machine

/-! The TOC byte bit by bit, and what each of its three fields decodes to (30_encoding.md R81). -/

namespace Sys2Proof

/-- The stereo flag's place in the TOC byte is bit 2. -/
theorem getLsbD_stereoBit (st : Bool) (k : Nat) :
    (if st then 0x04#8 else 0#8).getLsbD k = (decide (k = 2) && st) := by
  cases st
  · simp
  · have hpow : 0x04#8 = BitVec.twoPow 8 2 := rfl
    simp [hpow, BitVec.getLsbD_twoPow, eq_comm (a := k)]

/-- R81's layout, read at any bit: the Code below bit 2, the stereo flag at bit 2, the configuration above it. -/
@[simp] theorem getLsbD_tocByte (cfg : BitVec 5) (st : Bool) (code : BitVec 2) (k : Nat) :
    (tocByte cfg st code).getLsbD k =
      if k < 2 then code.getLsbD k else if k = 2 then st else cfg.getLsbD (k - 3) := by
  rw [tocByte, BitVec.getLsbD_or, BitVec.getLsbD_or, BitVec.getLsbD_shiftLeft, BitVec.getLsbD_setWidth,
    BitVec.getLsbD_setWidth, getLsbD_stereoBit]
  obtain hk | rfl | hk := Nat.lt_trichotomy k 2
  · simp [hk, show k < 3 by omega, show k ≠ 2 by omega, show k < 8 by omega]
  · simp
  · have hcode : code.getLsbD k = false := BitVec.getLsbD_of_ge code k (by omega)
    by_cases h8 : k < 8
    · simp [hcode, h8, show ¬ k < 2 by omega, show ¬ k < 3 by omega, show k ≠ 2 by omega, show k - 3 < 8 by omega]
    · have hcfg : cfg.getLsbD (k - 3) = false := BitVec.getLsbD_of_ge cfg (k - 3) (by omega)
      simp [h8, hcfg, show ¬ k < 2 by omega, show k ≠ 2 by omega]

@[simp] theorem extractLsb'_tocByte_config (cfg : BitVec 5) (st : Bool) (code : BitVec 2) :
    (tocByte cfg st code).extractLsb' 3 5 = cfg := by
  refine BitVec.eq_of_getLsbD_eq fun k hk => ?_
  simp [hk, show ¬ 3 + k < 2 by omega, show 3 + k ≠ 2 by omega]

@[simp] theorem flagBit_tocByte_stereo (cfg : BitVec 5) (st : Bool) (code : BitVec 2) :
    flagBit (tocByte cfg st code) 2 = st := getLsbD_tocByte cfg st code 2

@[simp] theorem extractLsb'_tocByte_code (cfg : BitVec 5) (st : Bool) (code : BitVec 2) :
    (tocByte cfg st code).extractLsb' 0 2 = code := by
  refine BitVec.eq_of_getLsbD_eq fun k hk => ?_
  simp [hk]

/-- Every byte is a TOC byte: it is put together again from its own three fields. -/
@[simp] theorem tocByte_of_fields (b : Byte) :
    tocByte (b.extractLsb' 3 5) (flagBit b 2) (b.extractLsb' 0 2) = b := by
  refine BitVec.eq_of_getLsbD_eq fun k hk => ?_
  rw [getLsbD_tocByte]
  obtain hlt | rfl | hgt := Nat.lt_trichotomy k 2
  · simp [hlt]
  · rfl
  · simp [show ¬ k < 2 by omega, show k ≠ 2 by omega, show k - 3 < 5 by omega, show 3 + (k - 3) = k by omega]

theorem decodeField_tocConfig (b : Byte) (rest : List Byte) :
    decodeField .tocConfig (b :: rest) = .ok (tocConfigRow (b.extractLsb' 3 5), rest) := rfl

theorem decodeField_tocStereo (b : Byte) (rest : List Byte) :
    decodeField .tocStereo (b :: rest) = .ok (tocStereoRow (flagBit b 2), rest) := rfl

theorem decodeField_tocCode (b : Byte) (rest : List Byte) :
    decodeField .tocCode (b :: rest) = .ok (tocCodeRow (b.extractLsb' 0 2), rest) := rfl

/-- Settles O2: each field from its bits of the byte laid out by R81, and every byte from its three fields. -/
theorem tocByteFieldsDecode : Obligations.TocByteFieldsDecode := by
  refine ⟨fun cfg st code rest => ⟨?_, ?_, ?_⟩, tocByte_of_fields⟩
  · rw [decodeField_tocConfig, extractLsb'_tocByte_config]
  · rw [decodeField_tocStereo, flagBit_tocByte_stereo, tocStereoRow]
  · rw [decodeField_tocCode, extractLsb'_tocByte_code]

end Sys2Proof

/-! The block's step from S_TOC, and TOC_DECODE as a run of its three rows (40_toc_config.md R120). -/

namespace Sys2Proof.Machine

/-! ### Steps and runs of an undisturbed block -/

theorem step_of_host_nil {s : State} (hh : s.host = []) : step s = blockStep s := by
  simp [step, hh]

theorem nextWork_of_working {f : Fsm} {s : State} (hw : Working f s) : nextWork s = fsmWork s := by
  obtain ⟨-, hport, hrst⟩ := hw
  simp [nextWork, hport, hrst]

theorem blockStep_of_run {s s' : State} {i : Instr} (h : nextWork s = .run i s') : blockStep s = exec i s' := by
  simp [blockStep, h]

theorem blockStep_of_raise {s : State} {e : ParseError} (h : nextWork s = .raise e) :
    blockStep s = .next (raise e s) := by
  simp [blockStep, h]

theorem safeRun_zero (s : State) : SafeRun 0 s s := rfl

theorem safeRun_succ {k : Nat} {s s' t : State} (hstep : step s = .next s') (hrun : SafeRun k s' t) :
    SafeRun (k + 1) s t := by
  have hcore : Sys2Proof.core.step s = .next s' := hstep
  simpa only [SafeRun, Host.Core.run, hcore] using hrun

/-! ### What the rows of the TOC byte do in S_TOC -/

/-- What the row of configuration `k` leaves (R120, R121). -/
def afterConfig (k : BitVec 5) (s : State) : State :=
  { s with
    regs := { s.regs with tocInfo := { s.regs.tocInfo with
      config := k, mode := (configLookup k).mode, bw := (configLookup k).bw, dur := (configLookup k).dur } }
    dp := { s.dp with dur := (configLookup k).dur }
    tocPhase := .stereo }

/-- What the row of the stereo flag leaves (R120). -/
def afterStereo (b : Bool) (s : State) : State :=
  { s with
    regs := { s.regs with tocInfo := { s.regs.tocInfo with stereo := b } }
    tocPhase := .code }

theorem State.atToc_of_working {ph : TocPhase} {s : State} (hw : Working .sToc s) (hp : s.tocPhase = ph) :
    s.atToc ph = true := by
  obtain ⟨hfsm, hport, hrst⟩ := hw
  simp [State.atToc, State.canWork, hfsm, hport, hrst, hp]

/-- The 32 configuration rows are one row with the index as its operand. -/
theorem exec_tocConfigRow (k : BitVec 5) (s : State) : exec (tocConfigRow k) s = writeConfig k s := by
  obtain ⟨n, hn⟩ := k
  interval_cases n <;> rfl

theorem exec_tocStereoRow (b : Bool) (s : State) : exec (tocStereoRow b) s = writeStereo b s := by
  cases b <;> rfl

theorem exec_tocConfigRow_of_working {s : State} (hw : Working .sToc s) (hp : s.tocPhase = .config) (k : BitVec 5) :
    exec (tocConfigRow k) s = .next (afterConfig k s) := by
  rw [exec_tocConfigRow, writeConfig, if_pos (State.atToc_of_working hw hp), afterConfig]

theorem exec_tocStereoRow_of_working {s : State} (hw : Working .sToc s) (hp : s.tocPhase = .stereo) (b : Bool) :
    exec (tocStereoRow b) s = .next (afterStereo b s) := by
  rw [exec_tocStereoRow, writeStereo, if_pos (State.atToc_of_working hw hp), afterStereo]

/-- The Code's row dispatches to the Code's state (R221). -/
theorem exec_tocCodeRow_of_working {s : State} (hw : Working .sToc s) (hp : s.tocPhase = .code) (c : BitVec 2) :
    exec (tocCodeRow c) s = .next (dispatchCode c (codeState c) s) := by
  have hat : s.atToc .code = true := State.atToc_of_working hw hp
  obtain ⟨n, hn⟩ := c
  interval_cases n <;> exact if_pos hat

/-! ### The block's work in S_TOC, and its steps -/

theorem nextWork_of_sToc {s : State} (hw : Working .sToc s) : nextWork s = tocWork s := by
  rw [nextWork_of_working hw, fsmWork, hw.1]

theorem tocWork_empty {s : State} (hp : s.tocPhase = .config) (hlen : s.dp.len = 0) : tocWork s = .raise .noTOC := by
  simp [tocWork, hp, hlen]

theorem tocWork_config {s : State} {b : Byte} (hp : s.tocPhase = .config) (hlen : s.dp.len ≠ 0)
    (hb : Memory.read s.pktBuf 0 = some b) :
    tocWork s = .run (tocConfigRow (b.extractLsb' 3 5)) { s with toc := b } := by
  simp only [tocWork, hp, if_neg hlen, memRead, hb, runField, decodeField_tocConfig]

theorem tocWork_stereo {s : State} (hp : s.tocPhase = .stereo) :
    tocWork s = .run (tocStereoRow (flagBit s.toc 2)) s := by
  simp [tocWork, hp, runField, decodeField_tocStereo]

theorem tocWork_code {s : State} (hp : s.tocPhase = .code) :
    tocWork s = .run (tocCodeRow (s.toc.extractLsb' 0 2)) s := by
  simp [tocWork, hp, runField, decodeField_tocCode]

section Steps

variable {s : State} (hw : Working .sToc s) (hh : s.host = [])
include hw hh

theorem step_toc_of_raise {e : ParseError} (h : tocWork s = .raise e) : step s = .next (raise e s) := by
  rw [step_of_host_nil hh, blockStep_of_raise ((nextWork_of_sToc hw).trans h)]

theorem step_toc_of_run {i : Instr} {s' : State} (h : tocWork s = .run i s') : step s = exec i s' := by
  rw [step_of_host_nil hh, blockStep_of_run ((nextWork_of_sToc hw).trans h)]

theorem step_toc_config {b : Byte} (hp : s.tocPhase = .config) (hlen : s.dp.len ≠ 0)
    (hb : Memory.read s.pktBuf 0 = some b) :
    step s = .next (afterConfig (b.extractLsb' 3 5) { s with toc := b }) := by
  rw [step_toc_of_run hw hh (tocWork_config hp hlen hb)]
  exact exec_tocConfigRow_of_working (s := { s with toc := b }) hw hp _

theorem step_toc_stereo (hp : s.tocPhase = .stereo) : step s = .next (afterStereo (flagBit s.toc 2) s) := by
  rw [step_toc_of_run hw hh (tocWork_stereo hp), exec_tocStereoRow_of_working hw hp]

theorem step_toc_code (hp : s.tocPhase = .code) :
    step s = .next (dispatchCode (s.toc.extractLsb' 0 2) (codeState (s.toc.extractLsb' 0 2)) s) := by
  rw [step_toc_of_run hw hh (tocWork_code hp), exec_tocCodeRow_of_working hw hp]

end Steps

/-- What the three rows of the TOC byte `b` leave, one after the other (R120, R221). -/
def afterToc (b : Byte) (s : State) : State :=
  dispatchCode (b.extractLsb' 0 2) (codeState (b.extractLsb' 0 2))
    (afterStereo (flagBit b 2) (afterConfig (b.extractLsb' 3 5) { s with toc := b }))

theorem safeRun_tocDecode {s : State} {b : Byte} (hw : Working .sToc s) (hh : s.host = []) (hp : s.tocPhase = .config)
    (hlen : s.dp.len ≠ 0) (hb : Memory.read s.pktBuf 0 = some b) : SafeRun 3 s (afterToc b s) := by
  have hconfig := step_toc_config hw hh hp hlen hb
  have hstereo := step_toc_stereo (s := afterConfig (b.extractLsb' 3 5) { s with toc := b }) hw hh rfl
  have hcode : step (afterStereo (flagBit b 2) (afterConfig (b.extractLsb' 3 5) { s with toc := b }))
    = .next (afterToc b s) := step_toc_code hw hh rfl
  exact safeRun_succ hconfig (safeRun_succ hstereo (safeRun_succ hcode (safeRun_zero _)))

/-- TOC_DECODE's effect field by field: TOC_INFO is `tocInfoOf` of the byte, whatever it held before (R120). -/
theorem afterToc_eq (b : Byte) (s : State) :
    afterToc b s = { s with
      regs := { s.regs with tocInfo := tocInfoOf b }
      dp := { s.dp with code := b.extractLsb' 0 2, dur := (configLookup (b.extractLsb' 3 5)).dur, pos := 1 }
      toc := (afterToc b s).toc
      tocPhase := (afterToc b s).tocPhase
      fsm := codeState (b.extractLsb' 0 2) } := rfl

/-! ### The TOC_INFO word -/

/-- A flag taken from bit `j`, put at bit `k` of a word, is that one bit shifted there. -/
theorem flagWord_flagBit {w : Nat} (x : BitVec w) (j k : Nat) :
    flagWord (flagBit x j) k = (x.extractLsb' j 1).setWidth 32 <<< k := by
  have hbit : x.extractLsb' j 1 = BitVec.ofBool (flagBit x j) := BitVec.eq_of_getLsbD_eq fun i hi => by
    obtain rfl : i = 0 := by omega
    simp
  rw [hbit]
  cases flagBit x j <;> simp [flagWord]

/-- TOC_VALID stands last in R120's formula, and first in R28's table. -/
theorem TocInfo.word_of_valid {t : TocInfo} (h : t.valid = true) :
    t.word = (t.dur.toBits.setWidth 32 <<< 13 ||| t.bw.toBits.setWidth 32 <<< 10 ||| t.mode.toBits.setWidth 32 <<< 8
      ||| t.code.setWidth 32 <<< 6 ||| flagWord t.stereo 5 ||| t.config.setWidth 32) ||| 1#32 <<< 31 := by
  have hvalid : flagWord true 31 = 1#32 <<< 31 := rfl
  rw [TocInfo.word, h, hvalid]
  ac_rfl

/-- R120's formula for TOC_INFO, in the bits of the TOC byte. -/
theorem tocInfoOf_word (b : Byte) :
    (tocInfoOf b).word =
      ((tocInfoOf b).dur.toBits.setWidth 32 <<< 13 ||| (tocInfoOf b).bw.toBits.setWidth 32 <<< 10
        ||| (tocInfoOf b).mode.toBits.setWidth 32 <<< 8 ||| (b.extractLsb' 0 2).setWidth 32 <<< 6
        ||| (b.extractLsb' 2 1).setWidth 32 <<< 5 ||| (b.extractLsb' 3 5).setWidth 32) ||| 1#32 <<< 31 := by
  have hstereo : flagWord (tocInfoOf b).stereo 5 = (b.extractLsb' 2 1).setWidth 32 <<< 5 := flagWord_flagBit b 2 5
  rw [TocInfo.word_of_valid rfl, hstereo]
  rfl

/-- Settles O15: NoTOC from S_TOC's one step on an empty packet, the decode as the run of the byte's three rows, and
the word from TOC_INFO's fields. -/
theorem tocDecodeOfAByte : Obligations.TocDecodeOfAByte := by
  intro s b hw hp hh
  refine ⟨fun hlen => step_toc_of_raise hw hh (tocWork_empty hp hlen), fun hlen hb => ⟨?_, tocInfoOf_word b⟩⟩
  exact ⟨3, afterToc b s, safeRun_tocDecode hw hh hp hlen hb, afterToc_eq b s⟩

end Sys2Proof.Machine

/-! LEN_DECODE in the block's step: what stands in the window of an awaited length field, and what runs
(41_length_decoder.md R140). -/

namespace Sys2Proof

theorem decodeField_len_oneByte {b0 : Byte} (h : b0.toNat ≤ 251) (rest : List Byte) :
    decodeField .len (b0 :: rest) = .ok (.len1 b0, rest) := by
  simp [decodeField, h]

theorem decodeField_len_twoBytes {b0 : Byte} (h : 252 ≤ b0.toNat) (b1 : Byte) (rest : List Byte) :
    decodeField .len (b0 :: b1 :: rest) = .ok (.len2 b0 b1, rest) := by
  simp [decodeField, show ¬ b0.toNat ≤ 251 by omega]

end Sys2Proof

namespace Sys2Proof.Machine

/-! ### The step of a block that works, from its FSM work -/

section Steps

variable {f : Fsm} {s : State} (hw : Working f s) (hh : s.host = [])
include hw hh

theorem step_of_fsmWork_raise {e : ParseError} (h : fsmWork s = .raise e) : step s = .next (raise e s) := by
  rw [step_of_host_nil hh, blockStep_of_raise ((nextWork_of_working hw).trans h)]

theorem step_of_fsmWork_run {i : Instr} {s' : State} (h : fsmWork s = .run i s') : step s = exec i s' := by
  rw [step_of_host_nil hh, blockStep_of_run ((nextWork_of_working hw).trans h)]

end Steps

/-! ### The length field -/

/-- Only S_C2 and S_C3F await a length field, and there LEN_DECODE is the work (R164, R170, R171). -/
theorem fsmWork_of_awaits_len {s : State} {p stop : Nat} (h : awaitedField s = some (.len, p, stop)) :
    fsmWork s = lenField p stop s := by
  cases hf : s.fsm <;> simp [awaitedField, hf] at h
  case sC2 | sC3f =>
    obtain ⟨hexp, rfl, rfl⟩ := h
    simp [fsmWork, hf, hexp]

theorem memRead_of_read {s : State} {i : Nat} {b : Byte} (h : Memory.read s.pktBuf i = some b)
    (k : Byte → BlockWork) : memRead s i k = k b := by
  simp [memRead, h]

theorem lenField_empty {s : State} {p stop : Nat} (h : stop ≤ p) : lenField p stop s = .raise .packetTooSmall :=
  if_pos h

section LenField

variable {s : State} {p stop : Nat} {b0 : Byte} (hp : p < stop) (h0 : Memory.read s.pktBuf p = some b0)
include hp h0

theorem lenField_oneByte (hb : b0.toNat ≤ 251) : lenField p stop s = .run (.len1 b0) s := by
  rw [lenField, if_neg (by omega), memRead_of_read h0, if_pos hb, runField, decodeField_len_oneByte hb]

/-- The window ends after a first byte that asks for a second. -/
theorem lenField_cutShort (hb : 252 ≤ b0.toNat) (hend : stop ≤ p + 1) :
    lenField p stop s = .raise .packetTooSmall := by
  rw [lenField, if_neg (by omega), memRead_of_read h0, if_neg (by omega), if_pos hend]

end LenField

theorem lenField_twoBytes {s : State} {p stop : Nat} {b0 b1 : Byte} (hb : 252 ≤ b0.toNat) (hend : p + 1 < stop)
    (h0 : Memory.read s.pktBuf p = some b0) (h1 : Memory.read s.pktBuf (p + 1) = some b1) :
    lenField p stop s = .run (.len2 b0 b1) s := by
  rw [lenField, if_neg (by omega), memRead_of_read h0, if_neg (by omega), if_neg (by omega), memRead_of_read h1,
    runField, decodeField_len_twoBytes hb]

/-- The largest value of a two-byte length field (R141). -/
theorem len2Value_le (b0 b1 : Byte) : len2Value b0 b1 ≤ 1275 := by
  have h0 := b0.isLt
  have h1 := b1.isLt
  rw [len2Value]
  omega

/-- Settles O11: the step is LEN_DECODE's work, read off the window's four cases. -/
theorem lengthFieldDecoded : Obligations.LengthFieldDecoded := by
  intro s p stop b0 b1 hport hrst hh hlen
  have hw : Working s.fsm s := ⟨rfl, hport, hrst⟩
  have hwork := fsmWork_of_awaits_len hlen
  refine ⟨fun hempty => ?_, fun hp h0 => ⟨fun hb => ⟨?_, rfl⟩, fun hb hend => ?_, fun hb hend h1 => ⟨?_, rfl, ?_⟩⟩⟩
  · exact step_of_fsmWork_raise hw hh (hwork.trans (lenField_empty hempty))
  · exact step_of_fsmWork_run hw hh (hwork.trans (lenField_oneByte hp h0 hb))
  · exact step_of_fsmWork_raise hw hh (hwork.trans (lenField_cutShort hp h0 hb hend))
  · exact step_of_fsmWork_run hw hh (hwork.trans (lenField_twoBytes hb hend h0 h1))
  · exact len2Value_le b0 b1

end Sys2Proof.Machine

/-! PAD_CHAIN, one chain byte (41_length_decoder.md R142): what the step runs, and what the byte leaves in the
counters, the FSM state and the registers. -/

namespace Sys2Proof.Machine

/-- `padContribution` decides on the byte as a number, R142 on the byte 0xFF itself. -/
theorem padContribution_eq (b : Byte) : padContribution b = if b = 0xFF then 254 else b.toNat :=
  if_congr (BitVec.toNat_inj (x := b) (y := 0xFF)) rfl rfl

theorem padContribution_le (b : Byte) : padContribution b ≤ 254 := by
  have hb := b.isLt
  rw [padContribution]
  split <;> omega

/-! ### The counters -/

/-- In S_C3P the cursor stands after the chain bytes counted, and what is counted fits the packet (R142, R66). -/
theorem DatapathInv.padChain {s : State} (hinv : DatapathInv s) (hf : s.fsm = .sC3p) :
    s.dp.pos.toNat = 2 + s.dp.padHdr.toNat ∧ 2 + s.dp.padHdr.toNat + s.dp.padData.toNat ≤ s.dp.len.toNat := by
  obtain ⟨-, -, -, -, -, -, -, hstage⟩ := hinv
  simp only [StageInv, hf] at hstage
  obtain ⟨-, -, -, hpos, hsum⟩ := hstage
  exact ⟨hpos, hsum⟩

/-- No counter leaves its register when a byte that is there is counted. -/
theorem countPadByte_counters {s : State} (hinv : DatapathInv s) (hf : s.fsm = .sC3p)
    (hleft : s.dp.pos.toNat < s.dp.len.toNat) (b : Byte) :
    (countPadByte b s).dp.pos.toNat = s.dp.pos.toNat + 1
      ∧ (countPadByte b s).dp.padHdr.toNat = s.dp.padHdr.toNat + 1
      ∧ (countPadByte b s).dp.padData.toNat = s.dp.padData.toNat + padContribution b := by
  obtain ⟨hpos, hsum⟩ := hinv.padChain hf
  have hlen := s.dp.len.isLt
  have hadd := padContribution_le b
  simp only [countPadByte_dp, BitVec.toNat_ofNat]
  refine ⟨Nat.mod_eq_of_lt ?_, Nat.mod_eq_of_lt ?_, Nat.mod_eq_of_lt ?_⟩ <;> omega

/-! ### What `padByte` leaves -/

/-- Whatever becomes of the chain, the cursor and the counts are those of the byte just counted. -/
theorem padByte_counters (b : Byte) (last : Bool) (s : State) :
    (padByte b last s).dp.pos = (countPadByte b s).dp.pos
      ∧ (padByte b last s).dp.padHdr = (countPadByte b s).dp.padHdr
      ∧ (padByte b last s).dp.padData = (countPadByte b s).dp.padData := by
  obtain h | ⟨-, h⟩ | ⟨-, h⟩ := padByte_cases b last s <;> rw [h] <;> exact ⟨rfl, rfl, rfl⟩

/-- The running total of the chain: its bytes and the padding they count (R142). -/
def chainTotal (s : State) : Nat := s.dp.padHdr.toNat + s.dp.padData.toNat

theorem padByte_of_overflow {b : Byte} {s : State} (h : s.dp.len.toNat - 2 < chainTotal (countPadByte b s))
    (last : Bool) : padByte b last s = raise .lengthOverflow (countPadByte b s) :=
  if_pos h

theorem padByte_of_fits {b : Byte} {s : State} (h : chainTotal (countPadByte b s) ≤ s.dp.len.toNat - 2)
    (last : Bool) :
    padByte b last s = if last then fixRegion (paddingResult (countPadByte b s)) else countPadByte b s :=
  if_neg (Nat.not_lt.mpr h)

/-! ### The step in S_C3P with padding -/

section Step

variable {s : State} (hw : Working .sC3p s) (hp : s.dp.padf = true)
include hw hp

/-- The row of a chain byte does `padByte`'s work; every byte but 0xFF is the last of its chain. -/
theorem exec_padOfByte (b : Byte) : exec (padOfByte b) s = .next (padByte b (decide (b ≠ 0xFF)) s) := by
  obtain ⟨hf, hport, hrst⟩ := hw
  have hdue : s.canWork = true ∧ s.fsm = .sC3p ∧ s.dp.padf = true := ⟨by simp [State.canWork, hport, hrst], hf, hp⟩
  by_cases hb : b = 0xFF
  · subst hb
    exact if_pos hdue
  · rw [padOfByte, if_neg hb, decide_eq_true hb]
    exact if_pos hdue

theorem fsmWork_pad_none (hend : s.dp.len.toNat ≤ s.dp.pos.toNat) : fsmWork s = .raise .lengthOverflow := by
  simp [fsmWork, hw.1, hp, hend]

theorem fsmWork_pad {b : Byte} (hleft : s.dp.pos.toNat < s.dp.len.toNat)
    (hb : Memory.read s.pktBuf s.dp.pos.toNat = some b) : fsmWork s = .run (padOfByte b) s := by
  simp [fsmWork, hw.1, hp, Nat.not_le.mpr hleft, memRead_of_read hb, runField, decodeField]

end Step

/-- Settles O24: no byte left from S_C3P's work; otherwise the step is the byte's row, its counters are exact by
`DatapathInv`, and the running total decides among the three ends. -/
theorem paddingChainByte : Obligations.PaddingChainByte := by
  intro s b hinv hw hp hh add total
  refine ⟨fun hend => step_of_fsmWork_raise hw hh (fsmWork_pad_none hw hp hend), fun hleft hb => ?_⟩
  have hexec := exec_padOfByte hw hp b
  have hstep := (step_of_fsmWork_run hw hh (fsmWork_pad hw hp hleft hb)).trans hexec
  obtain ⟨hpos, hhdr, hdata⟩ := countPadByte_counters hinv hw.1 hleft b
  rw [padContribution_eq] at hdata
  have htotal : chainTotal (countPadByte b s) = total := by rw [chainTotal, hhdr, hdata]
  obtain ⟨hposEq, hhdrEq, hdataEq⟩ := padByte_counters b (decide (b ≠ 0xFF)) s
  refine ⟨padByte b (decide (b ≠ 0xFF)) s, hexec, hstep, hposEq ▸ hpos, hhdrEq ▸ hhdr, hdataEq ▸ hdata,
    fun hover => ?_, fun hfits hcont => ?_, fun hfits hlast => ?_⟩
  · rw [padByte_of_overflow (htotal ▸ hover)]
    exact ⟨rfl, rfl, rfl⟩
  · rw [padByte_of_fits (htotal ▸ hfits), if_neg (by simp [hcont])]
    exact ⟨hw.1, rfl⟩
  · rw [padByte_of_fits (htotal ▸ hfits), if_pos (decide_eq_true hlast)]
    exact ⟨rfl, rfl⟩

end Sys2Proof.Machine

/-! CODE3_HDR and CODE3_STRICT (42_code_splitter.md R165, R166): what a Code 3 header row does in S_C3H, and the
block's step there. -/

namespace Sys2Proof.Machine

/-! ### The header row in S_C3H -/

/-- The four Code 3 rows are one row with the VBR flag, the padding flag and M as its operands. -/
theorem exec_c3Row (v p : Bool) (m : BitVec 6) (s : State) : exec (c3Row v p m) s = c3Form v p m s := by
  cases v <;> cases p <;> rfl

theorem exec_c3Row_of_sC3h {s : State} (hw : Working .sC3h s) (v p : Bool) (m : BitVec 6) :
    exec (c3Row v p m) s = .next (readHeader v p m s) := by
  obtain ⟨hf, hport, hrst⟩ := hw
  rw [exec_c3Row, c3Form, if_pos ⟨by simp [State.canWork, hport, hrst], hf⟩]

/-- What CODE3_HDR alone leaves: C3_INFO, the header's fields and the cursor after the header byte (R165). -/
def withHeader (v p : Bool) (m : BitVec 6) (s : State) : State :=
  { s with
    regs := { s.regs with c3Info := ⟨m, p, v, true⟩ }
    dp := { s.dp with vbr := v, padf := p, m := m, pos := 2 } }

/-- The entry of CODE3_PAD_REGION: the padding step is next, its counters at 0 (R167). -/
def enterPadding (s : State) : State :=
  { s with fsm := .sC3p, dp := { s.dp with padHdr := 0, padData := 0 } }

theorem readHeader_of_noAudio {s : State} {m : BitVec 6} (hs : s.dp.strict = true) (hm : m = 0) (v p : Bool) :
    readHeader v p m s = raise .noAudio (withHeader v p m s) :=
  if_pos ⟨hs, hm⟩

theorem readHeader_of_tooMuchAudio {s : State} {m : BitVec 6} (hs : s.dp.strict = true) (hm : m ≠ 0)
    (hdur : Config.maxDurHalf < s.dp.dur.half * m.toNat) (v p : Bool) :
    readHeader v p m s = raise .tooMuchAudio (withHeader v p m s) :=
  (if_neg fun h => hm h.2).trans (if_pos ⟨hs, hdur⟩)

/-- A lenient parse makes neither check, and a strict one finds nothing to refuse (R166). -/
theorem readHeader_of_passes {s : State} {m : BitVec 6}
    (h : s.dp.strict = false ∨ (m ≠ 0 ∧ s.dp.dur.half * m.toNat ≤ Config.maxDurHalf)) (v p : Bool) :
    readHeader v p m s = enterPadding (withHeader v p m s) := by
  have hnoAudio : ¬ (s.dp.strict = true ∧ m = 0) := by
    rintro ⟨hs, hm⟩
    simp [hs, hm] at h
  have htooMuch : ¬ (s.dp.strict = true ∧ Config.maxDurHalf < s.dp.dur.half * m.toNat) := by
    rintro ⟨hs, hdur⟩
    obtain hlenient | ⟨-, hle⟩ := h
    · simp [hs] at hlenient
    · omega
  exact (if_neg hnoAudio).trans (if_neg htooMuch)

/-- Everything a header row can do in S_C3H: one of the two strict errors, or the entry of the padding step. -/
theorem readHeader_cases (v p : Bool) (m : BitVec 6) (s : State) :
    readHeader v p m s = raise .noAudio (withHeader v p m s)
      ∨ readHeader v p m s = raise .tooMuchAudio (withHeader v p m s)
      ∨ readHeader v p m s = enterPadding (withHeader v p m s) := by
  unfold readHeader
  split
  · exact .inl rfl
  · split
    · exact .inr (.inl rfl)
    · exact .inr (.inr rfl)

/-- The header stands whatever the strict checks say: nothing is rolled back (R165, R251). -/
theorem readHeader_header (v p : Bool) (m : BitVec 6) (s : State) :
    (readHeader v p m s).regs.c3Info = ⟨m, p, v, true⟩ ∧ (readHeader v p m s).dp.vbr = v
      ∧ (readHeader v p m s).dp.padf = p ∧ (readHeader v p m s).dp.m = m ∧ (readHeader v p m s).dp.pos = 2 := by
  obtain h | h | h := readHeader_cases v p m s <;> rw [h] <;> exact ⟨rfl, rfl, rfl, rfl, rfl⟩

/-- Settles O22: the row runs `readHeader` in S_C3H, whose three outcomes are R166's. -/
theorem code3StrictChecks : Obligations.Code3StrictChecks := by
  intro s v p m hw s1
  have hexec := exec_c3Row_of_sC3h hw v p m
  refine ⟨fun hs hm => ?_, fun hs hm hdur => ?_, fun hpass => ?_⟩
  · rw [hexec, readHeader_of_noAudio hs hm]
    rfl
  · rw [hexec, readHeader_of_tooMuchAudio hs hm hdur]
    rfl
  · rw [hexec, readHeader_of_passes hpass]
    rfl

/-! ### The step in S_C3H -/

theorem fsmWork_header_missing {s : State} (hw : Working .sC3h s) (hlen : s.dp.len.toNat < 2) :
    fsmWork s = .raise .packetTooSmall := by
  simp [fsmWork, hw.1, hlen]

theorem fsmWork_header {s : State} {h : Byte} (hw : Working .sC3h s) (hlen : 2 ≤ s.dp.len.toNat)
    (hb : Memory.read s.pktBuf 1 = some h) : fsmWork s = .run (c3OfByte h) s := by
  simp [fsmWork, hw.1, Nat.not_lt.mpr hlen, memRead_of_read hb, runField, decodeField]

/-- C3_VALID stands last in R165's formula, and first in R29's table. -/
theorem C3Info.word_of_valid {c : C3Info} (h : c.valid = true) :
    c.word = (flagWord c.vbr 7 ||| flagWord c.pad 6 ||| c.m.setWidth 32) ||| 1#32 <<< 31 := by
  have hvalid : flagWord true 31 = 1#32 <<< 31 := rfl
  rw [C3Info.word, h, hvalid]
  ac_rfl

/-- R165's formula for C3_INFO, in the bits of the header byte. -/
theorem c3InfoOf_word (h : Byte) :
    (c3InfoOf h).word = ((h.extractLsb' 7 1).setWidth 32 <<< 7 ||| (h.extractLsb' 6 1).setWidth 32 <<< 6
      ||| (h.extractLsb' 0 6).setWidth 32) ||| 1#32 <<< 31 := by
  rw [C3Info.word_of_valid rfl, ← flagWord_flagBit, ← flagWord_flagBit]
  rfl

/-- Settles O21: PacketTooSmall from S_C3H's work on a short packet; otherwise the step is the row of the header byte,
and what it leaves of the header does not depend on the strict checks. -/
theorem code3HeaderRead : Obligations.Code3HeaderRead := by
  intro s h hw hh
  refine ⟨fun hlen => step_of_fsmWork_raise hw hh (fsmWork_header_missing hw hlen), fun hlen hb => ?_⟩
  have hexec := exec_c3Row_of_sC3h hw (flagBit h 7) (flagBit h 6) (h.extractLsb' 0 6)
  have hstep := (step_of_fsmWork_run hw hh (fsmWork_header hw hlen hb)).trans hexec
  obtain ⟨hinfo, hvbr, hpadf, hm, hpos⟩ := readHeader_header (flagBit h 7) (flagBit h 6) (h.extractLsb' 0 6) s
  have hword := (congrArg C3Info.word hinfo).trans (c3InfoOf_word h)
  exact ⟨_, hstep, hexec, hword, hinfo, hvbr, hpadf, hm, hpos⟩

end Sys2Proof.Machine

/-! The host commands and the host's other actions of 43_validity_fsm.md (R222 to R232): what each leaves, and the step
that takes it. -/

namespace Sys2Proof.Machine

/-! ### The host's turn -/

/-- `retire` is the whole effect of an action on the queue. -/
theorem retire_of_host {s : State} {e : HostEvent} {rest : List HostEvent} (hh : s.host = e :: rest) :
    s.retire = { s with host := rest } := by
  rw [State.retire, hh, List.tail_cons]

section HostTurn

variable {s : State} {e : HostEvent} {rest : List HostEvent} (hh : s.host = e :: rest) (hturn : hostTurn e s = true)
include hh hturn

theorem step_of_hostTurn : step s = hostStep e.act s := by
  simp [step, hh, hturn]

theorem step_of_hostWork_done {t : State} (h : hostWork e.act s = .done t) : step s = .next t := by
  rw [step_of_hostTurn hh hturn, hostStep, h]

theorem step_of_hostWork_refused {r : Refusal} (h : hostWork e.act s = .refused r) : step s = .refused r := by
  rw [step_of_hostTurn hh hturn, hostStep, h]

end HostTurn

/-! ### The host commands out of reset -/

section Commands

variable {s : State} (hrst : s.rst = false)
include hrst

theorem exec_start_of_not_rst (d : Word) : exec (.start d) s = startWork (writeCtrl d s.retire) := by
  change execStart d s = _
  rw [execStart, hostCommand_of_not_rst hrst]

theorem exec_ackDone_of_not_rst (d : Word) :
    exec (.ackDone d) s = .next (if flagBit d 1 then
      { s.retire with regs := { s.regs with status := { s.regs.status with done := false } } } else s.retire) := by
  change execAckDone d s = _
  rw [execAckDone, hostCommand_of_not_rst hrst, retire_regs]

theorem exec_setLen_of_not_rst (d : Word) :
    exec (.setLen d) s = .next { s.retire with regs := { s.regs with pktLen := d.extractLsb' 0 16 } } := by
  change execSetLen d s = _
  rw [execSetLen, hostCommand_of_not_rst hrst, retire_regs]

theorem exec_writePkt_of_idle (hidle : s.fsm = .idle) (i : BitVec 16) (v : PktData) :
    exec (.writePkt i v) s =
      .next { s.retire with pktBuf := Memory.writePkt s.params.pktMax s.pktBuf i.toNat v } := by
  change execWritePkt i v s = _
  rw [execWritePkt, hostCommand_of_not_rst hrst, retire_fsm, if_pos hidle]
  rfl

theorem exec_writePkt_of_not_idle (hbusy : s.fsm ≠ .idle) (i : BitVec 16) (v : PktData) :
    exec (.writePkt i v) s = .refused (.pktWriteWhileBusy i.toNat) := by
  change execWritePkt i v s = _
  rw [execWritePkt, hostCommand_of_not_rst hrst, retire_fsm, if_neg hbusy]

end Commands

/-- A CTRL write is START or SET_CTRL by its bit 0, whatever the buffer's size (R89). -/
theorem decodeBus_ctrl (pktMax : Nat) (d : Word) :
    decodeBus pktMax 0x00 32 d = .ok (if flagBit d 0 then .start d else .setCtrl d) := rfl

/-- No outcome of START writes CTRL again after the fields it takes first (R223, R225). -/
theorem startWork_ctrl {s t : State} (h : startWork s = .next t) : t.regs.ctrl = s.regs.ctrl := by
  obtain ⟨-, hw⟩ | ⟨-, -, hw⟩ | ⟨-, -, hw⟩ := startWork_cases s <;> rw [hw] at h
  · cases h
    rfl
  · cases h
  · cases h
    rfl

/-- Settles O31: the CTRL write's decoding, SET_CTRL's one next state, and START's outcomes after `writeCtrl`. -/
theorem setCtrlWritesItsFields : Obligations.SetCtrlWritesItsFields := by
  intro s d hrst
  refine ⟨decodeBus_ctrl _ d, exec_setCtrl_of_not_rst hrst d, fun t h => ?_⟩
  rw [exec_start_of_not_rst hrst] at h
  exact startWork_ctrl h

theorem startWork_of_not_idle {s : State} (h : s.fsm ≠ .idle) : startWork s = .next s := if_pos h

theorem startWork_of_too_large {s : State} (hidle : s.fsm = .idle) (hlen : s.params.pktMax < s.regs.pktLen.toNat) :
    startWork s = .refused (.startLenTooLarge s.regs.pktLen.toNat) :=
  (if_neg (not_not_intro hidle)).trans (if_pos hlen)

theorem startWork_of_accepted {s : State} (hidle : s.fsm = .idle) (hlen : s.regs.pktLen.toNat ≤ s.params.pktMax) :
    startWork s = .next (beginParse s) :=
  (if_neg (not_not_intro hidle)).trans (if_neg (Nat.not_lt.mpr hlen))

/-- Settles O32: START is `startWork` after the CTRL fields, in its three cases. -/
theorem startBeginsAParse : Obligations.StartBeginsAParse := by
  intro s d hrst
  rw [exec_start_of_not_rst hrst]
  refine ⟨fun hbusy => startWork_of_not_idle hbusy, fun hidle hlen => startWork_of_too_large hidle hlen,
    fun hidle hlen => ?_⟩
  exact ⟨beginParse (writeCtrl d s.retire), startWork_of_accepted hidle hlen, rfl, rfl⟩

/-- Settles O33: bit 1 of the word decides between the two next states of a STATUS write. -/
theorem ackDoneClearsDone : Obligations.AckDoneClearsDone := by
  intro s d hrst
  rw [exec_ackDone_of_not_rst hrst]
  refine ⟨fun hbit => ?_, fun hbit => ?_⟩
  · rw [if_pos hbit]
    exact ⟨_, rfl, rfl, rfl⟩
  · rw [if_neg (Bool.eq_false_iff.mp hbit)]
    rfl

/-- Settles O34: the low half of the word is the word narrowed to 16 bits. -/
theorem setLenStoresPktLen : Obligations.SetLenStoresPktLen := by
  intro s d hrst
  have hlow : d.extractLsb' 0 16 = BitVec.ofNat 16 d.toNat := by
    rw [BitVec.extractLsb', Nat.shiftRight_zero]
  rw [exec_setLen_of_not_rst hrst, hlow]
  rfl

/-! ### WRITE_PKT's cells -/

theorem Memory.read_writePkt_byte (mem : Memory) (pktMax i j : Nat) (b : Byte) :
    Memory.read (Memory.writePkt pktMax mem i (.byte b)) j
      = if j = i ∧ j < pktMax then some b else Memory.read mem j := by
  rw [Memory.writePkt, Memory.read_writeInside]
  exact if_congr (and_congr_right fun h => by rw [h]) rfl rfl

/-- The four cells of a word are distinct, so each keeps its own byte (R65). -/
theorem Memory.read_writePkt_word (mem : Memory) (pktMax i j : Nat) (w : Word) :
    Memory.read (Memory.writePkt pktMax mem i (.word w)) j
      = if i ≤ j ∧ j < i + 4 ∧ j < pktMax then some (wordByte w (j - i)) else Memory.read mem j := by
  simp only [Memory.writePkt, Memory.read_writeInside]
  by_cases hin : i ≤ j ∧ j < i + 4
  · obtain ⟨k, rfl⟩ := Nat.exists_eq_add_of_le hin.1
    have hk : k < 4 := by omega
    interval_cases k <;> simp
  · rw [if_neg (by omega), if_neg (by omega), if_neg (by omega), if_neg (by omega), if_neg (by omega)]

/-- Settles O35: the next state in IDLE holds `Memory.writePkt`, whose cells the two laws above read. -/
theorem writePktWritesItsCells : Obligations.WritePktWritesItsCells := by
  intro s i hrst
  refine ⟨fun hidle v => ⟨Memory.writePkt s.params.pktMax s.pktBuf i.toNat v, exec_writePkt_of_idle hrst hidle i v,
    ?_, ?_⟩, fun hbusy v => exec_writePkt_of_not_idle hrst hbusy i v⟩
  · rintro b rfl j
    exact Memory.read_writePkt_byte ..
  · rintro w rfl j
    exact Memory.read_writePkt_word ..

/-! ### finish -/

theorem fsmWork_of_sFin {s : State} (h : s.fsm = .sFin) : fsmWork s = .finish := by
  simp [fsmWork, h]

theorem step_of_sFin {s : State} (hw : Working .sFin s) (hh : s.host = []) : step s = .next (finish s) := by
  rw [step_of_host_nil hh, blockStep, nextWork_of_working hw, fsmWork_of_sFin hw.1]

/-- A parse that ends, well or with an error, reports DONE (R229). -/
theorem Status.done_ofOutcome (o : Option ParseError) : (Status.ofOutcome o).done = true := by
  cases o <;> rfl

theorem irq_finish (s : State) : (finish s).irq = s.regs.ctrl.irqEn := by
  rw [State.irq, finish_regs, Status.done_ofOutcome, Bool.true_and]

/-- Settles O30: the step is `finish`, and its STATUS is `Status.ofOutcome` of what S_FIN holds. -/
theorem finishReportsTheOutcome : Obligations.FinishReportsTheOutcome := by
  intro s hw hh
  have hbusy : s.busy = true := by rw [State.busy, hw.1]; rfl
  refine ⟨finish s, step_of_sFin hw hh, rfl, hbusy, rfl, Status.done_ofOutcome _, irq_finish s, fun hok => ?_,
    fun e he => ?_⟩
  · rw [finish_regs, hok]
    exact ⟨rfl, rfl⟩
  · rw [finish_regs, he]
    cases e <;> exact ⟨rfl, rfl⟩

/-! ### Reads of the register space -/

/-- An offset of the map is an address of OPF's, wherever `BASE` is (R74). -/
theorem State.outside_base_add {offset : Nat} (s : State) (h : offset < Config.mapEnd) :
    s.outside (s.params.base + offset) = false := by
  rw [State.outside, decide_eq_false (by omega), decide_eq_false (by omega), Bool.or_self]

theorem hostRead_register {s : State} {offset : Nat} (hrst : s.rst = false) (hlt : offset < Config.pktWinOff)
    (halign : offset % 4 = 0) : hostRead (s.params.base + offset) 32 s = .done (readRegister offset s) := by
  have hinside := s.outside_base_add (hlt.trans (by decide : Config.pktWinOff < Config.mapEnd))
  simp [hostRead, hinside, readOffset, hrst, hlt, halign]

/-- A read changes the host's own side only (R230). -/
theorem returnRead_frame (w : Word) (k : Nat) (s : State) :
    returnRead w k s = { s with host := s.host.tail, busData := w, draws := s.draws + k } := rfl

/-- A register read is a draw, or the exact value (R230). -/
theorem readRegister_cases (offset : Nat) (s : State) :
    ((s.busy = true ∧ isResultOffset offset = true) ∧ readRegister offset s = returnRead (Config.freeWord s.draws) 1 s)
      ∨ (¬ (s.busy = true ∧ isResultOffset offset = true)
          ∧ readRegister offset s = returnRead (s.registerWord offset) 0 s) := by
  unfold readRegister
  split
  · exact .inl ⟨‹_›, rfl⟩
  · exact .inr ⟨‹_›, rfl⟩

theorem readRegister_frame (offset : Nat) (s : State) :
    readRegister offset s = { s with
      host := s.host.tail, busData := (readRegister offset s).busData, draws := (readRegister offset s).draws } := by
  obtain ⟨-, h⟩ | ⟨-, h⟩ := readRegister_cases offset s <;> rw [h] <;> exact returnRead_frame ..

theorem readRegister_exact {offset : Nat} {s : State} (h : ¬ (s.busy = true ∧ isResultOffset offset = true)) :
    readRegister offset s = returnRead (s.registerWord offset) 0 s :=
  if_neg h

theorem isResultOffset_eq_true_iff {offset : Nat} : isResultOffset offset = true ↔ 0x0C ≤ offset ∧ offset ≤ 0x20 := by
  simp [isResultOffset]

theorem flagWord_eq (b : Bool) (k : Nat) : flagWord b k = (if b then 1#32 else 0) <<< k := by
  cases b <;> simp [flagWord]

/-- CTRL's word in R25's bits; START reads 0. -/
theorem registerWord_ctrl (s : State) :
    s.registerWord 0x00 = ((if s.regs.ctrl.irqEn then 1#32 else 0) <<< 2 |||
      (if s.regs.ctrl.strict then 1#32 else 0) <<< 1) := by
  rw [← flagWord_eq, ← flagWord_eq]
  rfl

/-- Settles O36: the step is `readRegister`, which draws only for a result register while BUSY. -/
theorem registerReads : Obligations.RegisterReads := by
  intro s delay offset rest hrst hh hturn hlt halign
  have hstep := step_of_hostWork_done hh (by simpa [hostTurn] using hturn) (hostRead_register hrst hlt halign)
  have hframe := readRegister_frame offset s
  rw [hh, List.tail_cons] at hframe
  refine ⟨readRegister offset s, hstep, hframe, fun hexact => ?_, registerWord_ctrl s⟩
  have hnoDraw : ¬ (s.busy = true ∧ isResultOffset offset = true) := by
    rintro ⟨hbusy, hres⟩
    obtain ⟨hlow, hhigh⟩ := isResultOffset_eq_true_iff.mp hres
    obtain h | h | h := hexact
    · omega
    · omega
    · simp [hbusy] at h
  rw [readRegister_exact hnoDraw]
  exact ⟨rfl, rfl⟩

/-! ### CLEAR_SINK -/

/-- Settles O40: the host's turn comes in IDLE or with the delay over, and `clearSink` decides on IDLE. -/
theorem clearSinkEmptiesSink : Obligations.ClearSink := by
  intro s delay rest hh
  refine ⟨fun hidle => ?_, fun hbusy hdelay => ?_⟩
  · rw [step_of_hostWork_done hh (by simp [hostTurn, hidle]) (if_pos hidle), retire_of_host hh]
  · exact step_of_hostWork_refused hh (by simp [hostTurn, hdelay]) (if_neg hbusy)

end Sys2Proof.Machine

/-! The block held in reset (70_reset_and_hazards.md R280): its turn and the host's accesses. -/

namespace Sys2Proof.Machine

/-! ### The block's turn -/

theorem step_of_blockTurn {s : State} (hturn : BlockTurn s) : step s = blockStep s.countDown := by
  obtain ⟨hh, hstep⟩ | ⟨e, rest, hh, hhost, -⟩ | ⟨e, rest, -, -, hstep⟩ := step_cases s
  · rw [hstep, State.countDown, hh]
  · rw [hturn e rest hh] at hhost
    cases hhost
  · exact hstep

/-! ### The bus commands

A bus write decodes to no row of the packet's, so what holds of the host's commands holds of every write's row. -/

theorem isPacketRow_of_decodeRegisterWrite {offset : Nat} {d : Word} {i : Instr}
    (h : decodeRegisterWrite offset d = .ok i) : isPacketRow i = false := by
  unfold decodeRegisterWrite at h
  split at h
  · cases h
    cases flagBit d 0 <;> rfl
  · split at h <;> cases h
    rfl
  · cases h
    rfl
  · cases h

theorem isPacketRow_of_decodeWindowWrite {pktMax k width : Nat} {d : Word} {i : Instr}
    (h : decodeWindowWrite pktMax k width d = .ok i) : isPacketRow i = false := by
  unfold decodeWindowWrite at h
  split_ifs at h <;> cases h <;> rfl

theorem isPacketRow_of_decodeBus {pktMax offset width : Nat} {d : Word} {i : Instr}
    (h : decodeBus pktMax offset width d = .ok i) : isPacketRow i = false := by
  unfold decodeBus at h
  split_ifs at h
  · exact isPacketRow_of_decodeRegisterWrite h
  · exact isPacketRow_of_decodeWindowWrite h

/-! ### While `rst` is asserted -/

section Held

variable {s : State} (hrst : s.rst = true)
include hrst

theorem hostCommand_of_rst (f : State → Host.Outcome State Fault Refusal) : hostCommand s f = .next s.retire :=
  if_pos hrst

/-- Every row that is not the packet's runs through `hostCommand`, which looks at `rst` first. -/
theorem exec_of_rst {i : Instr} (hi : isPacketRow i = false) : exec i s = .next s.retire := by
  cases i
  case setCtrl | start | ackDone | setLen | writePkt =>
    simp only [exec, execSetCtrl, execStart, execAckDone, execSetLen, execWritePkt, hostCommand_of_rst hrst]
  all_goals cases hi

/-- A write that is a command runs its row, which does nothing in reset; any other is ignored by the bus. -/
theorem hostStep_write_of_rst {offset : Nat} (hlt : offset < Config.mapEnd) (width : Nat) (d : Word) :
    hostStep (.write (s.params.base + offset) width d) s = .next s.retire := by
  cases hdec : decodeBus s.params.pktMax offset width d with
  | ok i =>
    have hexec := exec_of_rst hrst (isPacketRow_of_decodeBus hdec)
    simp [hostStep, hostWork, hostWrite, s.outside_base_add hlt, hdec, hexec]
  | error e => simp [hostStep, hostWork, hostWrite, s.outside_base_add hlt, hdec, hrst]

theorem hostRead_of_rst {offset : Nat} (hlt : offset < Config.mapEnd) (width : Nat) :
    hostRead (s.params.base + offset) width s = .done (returnRead (Config.freeWord s.draws) 1 s) := by
  simp [hostRead, s.outside_base_add hlt, readOffset, hrst]

theorem blockStep_of_rst : blockStep s = .next s := by
  simp [blockStep, nextWork, hrst]

end Held

theorem State.countDown_rst (s : State) : s.countDown.rst = s.rst := by
  rw [countDown_frame]

/-- Settles O42: the block's turn only counts down; a write of any width retires, and a read is one draw. -/
theorem heldInReset : Obligations.HeldInReset := by
  intro s hrst
  refine ⟨fun hblock => ⟨?_, countDown_frame s⟩, fun delay offset width d rest hdue hlt => ⟨fun hh => ?_, fun hh => ?_⟩⟩
  · rw [step_of_blockTurn hblock, blockStep_of_rst (s.countDown_rst.trans hrst)]
  · rw [step_of_hostTurn hh (by simpa [hostTurn] using hdue), hostStep_write_of_rst hrst hlt, retire_of_host hh]
  · refine ⟨_, step_of_hostWork_done hh (by simpa [hostTurn] using hdue) (hostRead_of_rst hrst hlt width), ?_⟩
    rw [returnRead_frame, hh, List.tail_cons]

end Sys2Proof.Machine

/-! Exact naturals in their registers (00_scope.md R8). -/

namespace Sys2Proof

theorem toNat_ofNat_of_lt {w n : Nat} (h : n < 2 ^ w) : (BitVec.ofNat w n).toNat = n :=
  (BitVec.toNat_ofNat n w).trans (Nat.mod_eq_of_lt h)

theorem toNat_word16 {n : Nat} (h : n < 65536) : (word16 n).toNat = n := toNat_ofNat_of_lt h

@[simp] theorem word16_toNat (i : BitVec 16) : word16 i.toNat = i :=
  (BitVec.ofNat_toNat 16 i).trans (BitVec.setWidth_eq i)

end Sys2Proof

/-! Decode of encode (30_encoding.md, sections 1 to 3), and the length field's one encoding of each value (R84). -/

namespace Sys2Proof

/-! ### Code 3 header bytes and chain bytes -/

/-- R83's layout: the header byte's three fields come back from their bits. -/
theorem c3OfByte_c3Byte (v p : Bool) (m : BitVec 6) : c3OfByte (c3Byte v p m) = c3Row v p m := by
  have hfields : flagBit (c3Byte v p m) 7 = v ∧ flagBit (c3Byte v p m) 6 = p
      ∧ (c3Byte v p m).extractLsb' 0 6 = m := by
    cases v <;> cases p <;> revert m <;> decide
  obtain ⟨hv, hp, hm⟩ := hfields
  rw [c3OfByte, hv, hp, hm]

theorem padOfByte_of_le {t : Byte} (h : t.toNat ≤ 254) : padOfByte t = .padTerm t := by
  refine if_neg fun h255 => ?_
  subst h255
  exact absurd h (by decide)

/-! ### Packet window writes -/

theorem decodeBus_window {pktMax i width : Nat} (hi : i < 65536) (d : Word) :
    decodeBus pktMax (Config.pktWinOff + i) width d = decodeWindowWrite pktMax i width d := by
  have hwin : ¬ Config.pktWinOff + i < Config.pktWinOff := by omega
  have hmap : Config.pktWinOff + i < Config.mapEnd := by
    simp only [Config.pktWinOff, Config.mapEnd]
    omega
  rw [decodeBus, if_neg hwin, if_pos hmap, Nat.add_sub_cancel_left]

/-- Every row of WRITE_PKT decodes from the window offset and the width it is written with (R65). -/
theorem decode_encode_writePkt {pktMax : Nat} {i : BitVec 16} {v : PktData}
    (hwf : (Instr.writePkt i v).wellFormed = true) (hi : i.toNat < pktMax) :
    decode pktMax (encode (.writePkt i v)) = .ok (.writePkt i v) := by
  cases v with
  | byte b =>
    have hb : (b.setWidth 32).extractLsb' 0 8 = b := by simp [BitVec.extractLsb'_setWidth_of_le]
    rw [encode, decode, decodeBus_window i.isLt, decodeWindowWrite, if_pos rfl, if_pos hi, word16_toNat, hb]
  | word w =>
    have halign : i.toNat % 4 = 0 := by simpa [Instr.wellFormed] using hwf
    rw [encode, decode, decodeBus_window i.isLt, decodeWindowWrite, if_neg (by decide), if_pos ⟨rfl, halign⟩,
      if_pos hi, word16_toNat]

/-- Settles O1, row by row: the rows without operands compute, the others turn on their range in `wellFormed`. -/
theorem decodeEncodeRoundTrip : Obligations.DecodeEncodeRoundTrip := by
  intro pktMax i hwf hcell
  cases i with
  | c3Cbr m => exact congrArg Except.ok (c3OfByte_c3Byte false false m)
  | c3CbrPad m => exact congrArg Except.ok (c3OfByte_c3Byte false true m)
  | c3Vbr m => exact congrArg Except.ok (c3OfByte_c3Byte true false m)
  | c3VbrPad m => exact congrArg Except.ok (c3OfByte_c3Byte true true m)
  | len1 b0 =>
    rw [encode, decode, decodeField_len_oneByte (of_decide_eq_true hwf)]
    rfl
  | len2 b0 b1 =>
    rw [encode, decode, decodeField_len_twoBytes (of_decide_eq_true hwf)]
    rfl
  | padTerm t => exact congrArg Except.ok (padOfByte_of_le (of_decide_eq_true hwf))
  | setCtrl d =>
    have hbit : flagBit d 0 = false := by simpa only [Instr.wellFormed, Bool.not_eq_true'] using hwf
    exact congrArg Except.ok (if_neg (Bool.eq_false_iff.mp hbit))
  | start d => exact congrArg Except.ok (if_pos hwf)
  | ackDone d => exact if_pos hwf
  | writePkt j v => exact decode_encode_writePkt hwf (hcell j v rfl)
  | _ => rfl

/-- Settles O5: each word is computed. -/
theorem sampleWordsDecode : Obligations.SampleWordsDecode := by
  unfold Obligations.SampleWordsDecode
  refine ⟨rfl, rfl, rfl, rfl, rfl, rfl, rfl, rfl⟩

end Sys2Proof

namespace Sys2Proof.Machine

/-! ### The length field -/

/-- The two rows of a length field with the values they carry (R84). -/
theorem lenRowValue_cases {i : Instr} {v n : Nat} (hwf : i.wellFormed = true) (h : lenRowValue i = some (v, n)) :
    (∃ b0, i = .len1 b0 ∧ v = b0.toNat ∧ n = 1 ∧ v ≤ 251)
      ∨ (∃ b0 b1, i = .len2 b0 b1 ∧ v = len2Value b0 b1 ∧ n = 2 ∧ 252 ≤ b0.toNat ∧ v ≤ 1275) := by
  cases i <;> simp only [lenRowValue, Option.some.injEq, Prod.mk.injEq, reduceCtorEq] at h
  case len1 b0 =>
    obtain ⟨rfl, rfl⟩ := h
    exact .inl ⟨b0, rfl, rfl, rfl, of_decide_eq_true hwf⟩
  case len2 b0 b1 =>
    obtain ⟨rfl, rfl⟩ := h
    exact .inr ⟨b0, b1, rfl, rfl, rfl, of_decide_eq_true hwf, len2Value_le b0 b1⟩

/-- No explicit length exceeds 1275 (R141). -/
theorem lenRowValue_le {i : Instr} {v n : Nat} (hwf : i.wellFormed = true) (h : lenRowValue i = some (v, n)) :
    v ≤ 1275 := by
  obtain ⟨-, -, -, -, hv⟩ | ⟨-, -, -, -, -, -, hv⟩ := lenRowValue_cases hwf h <;> omega

/-- The first byte is `252 + v % 4`, so a two-byte field's value fixes both bytes. -/
theorem len2_inj {a0 a1 b0 b1 : Byte} (ha : 252 ≤ a0.toNat) (hb : 252 ≤ b0.toNat)
    (h : len2Value a0 a1 = len2Value b0 b1) : a0 = b0 ∧ a1 = b1 := by
  have ha0 := a0.isLt
  have hb0 := b0.isLt
  rw [len2Value, len2Value] at h
  constructor <;> refine BitVec.eq_of_toNat_eq ?_ <;> omega

/-- Two well-formed length fields of one value are the same field. -/
theorem lenRow_unique {i j : Instr} {v n k : Nat} (hi : i.wellFormed = true) (hj : j.wellFormed = true)
    (hvi : lenRowValue i = some (v, n)) (hvj : lenRowValue j = some (v, k)) : i = j := by
  obtain ⟨b0, rfl, hv, -, hle⟩ | ⟨b0, b1, rfl, hv, -, hb0, -⟩ := lenRowValue_cases hi hvi <;>
    obtain ⟨c0, rfl, hv', -, hle'⟩ | ⟨c0, c1, rfl, hv', -, hc0, -⟩ := lenRowValue_cases hj hvj
  · rw [BitVec.eq_of_toNat_eq (hv.symm.trans hv')]
  · rw [len2Value] at hv'
    omega
  · rw [len2Value] at hv
    omega
  · obtain ⟨rfl, rfl⟩ := len2_inj hb0 hc0 (hv.symm.trans hv')
    rfl

theorem exists_lenRow {v : Nat} (hv : v ≤ 1275) :
    ∃ i : Instr, i.wellFormed = true ∧ ∃ n, lenRowValue i = some (v, n) := by
  by_cases h : v ≤ 251
  · have hb : (BitVec.ofNat 8 v).toNat = v := toNat_ofNat_of_lt (by omega)
    exact ⟨.len1 (BitVec.ofNat 8 v), decide_eq_true (by omega), 1, by rw [lenRowValue, hb]⟩
  · have hb0 : (BitVec.ofNat 8 (252 + v % 4)).toNat = 252 + v % 4 := toNat_ofNat_of_lt (by omega)
    have hb1 : (BitVec.ofNat 8 (v / 4 - 63)).toNat = v / 4 - 63 := toNat_ofNat_of_lt (by omega)
    have hval : len2Value (BitVec.ofNat 8 (252 + v % 4)) (BitVec.ofNat 8 (v / 4 - 63)) = v := by
      rw [len2Value, hb0, hb1]
      omega
    exact ⟨.len2 _ _, decide_eq_true (hb0 ▸ Nat.le_add_right 252 _), 2, by rw [lenRowValue, hval]⟩

/-- Settles O3: the form from the first byte, the ranges from the two rows, existence from the digits of the value in
base 4, uniqueness from `lenRow_unique`. -/
theorem lengthFieldHasOneEncoding : Obligations.LengthFieldHasOneEncoding := by
  refine ⟨fun b0 b1 rest => ⟨fun h => ⟨decodeField_len_oneByte h _, rfl⟩,
    fun h => ⟨decodeField_len_twoBytes h b1 rest, rfl⟩⟩, fun i v n hwf h => ?_, fun v hv => ?_⟩
  · obtain ⟨b0, -, -, hn, hle⟩ | ⟨b0, b1, -, hval, hn, hb0, hle⟩ := lenRowValue_cases hwf h
    · exact .inl ⟨hn, hle⟩
    · rw [len2Value] at hval
      exact .inr ⟨hn, by omega, hle⟩
  · obtain ⟨i, hwf, n, hval⟩ := exists_lenRow hv
    refine ⟨i, ⟨hwf, n, hval⟩, ?_⟩
    rintro j ⟨hwfj, k, hvalj⟩
    exact lenRow_unique hwfj hwf hvalj hval

end Sys2Proof.Machine

/-! The packet rows: which they are, and what each does where it is due (30_encoding.md R93, 43_validity_fsm.md
R220). -/

namespace Sys2Proof.Machine

/-! ### The packet rows by their fields -/

/-- The 46 packet rows are the rows of the six packet fields (R80, R93). -/
theorem packetRow_cases {i : Instr} (hi : isPacketRow i = true) :
    (∃ k, i = tocConfigRow k) ∨ (∃ b, i = tocStereoRow b) ∨ (∃ c, i = tocCodeRow c) ∨ (∃ v p m, i = c3Row v p m)
      ∨ (∃ v n, lenRowValue i = some (v, n)) ∨ (i = .padCont ∨ ∃ t, i = .padTerm t) := by
  cases i
  case setCtrl | start | ackDone | setLen | writePkt => cases hi
  case len1 | len2 => exact .inr (.inr (.inr (.inr (.inl ⟨_, _, rfl⟩))))
  case padCont => exact .inr (.inr (.inr (.inr (.inr (.inl rfl)))))
  case padTerm t => exact .inr (.inr (.inr (.inr (.inr (.inr ⟨t, rfl⟩)))))
  case c3Cbr m => exact .inr (.inr (.inr (.inl ⟨false, false, m, rfl⟩)))
  case c3CbrPad m => exact .inr (.inr (.inr (.inl ⟨false, true, m, rfl⟩)))
  case c3Vbr m => exact .inr (.inr (.inr (.inl ⟨true, false, m, rfl⟩)))
  case c3VbrPad m => exact .inr (.inr (.inr (.inl ⟨true, true, m, rfl⟩)))
  case tocMono => exact .inr (.inl ⟨false, rfl⟩)
  case tocStereo => exact .inr (.inl ⟨true, rfl⟩)
  case tocCode0 | tocCode1 | tocCode2 | tocCode3 => exact .inr (.inr (.inl (by decide)))
  all_goals exact .inl (by decide)

theorem exec_lenRow {i : Instr} {v n : Nat} (h : lenRowValue i = some (v, n)) (s : State) :
    exec i s = lenForm i v n s := by
  cases i <;> simp only [lenRowValue, Option.some.injEq, Prod.mk.injEq, reduceCtorEq] at h
  case len1 | len2 =>
    obtain ⟨rfl, rfl⟩ := h
    rfl

theorem State.canWork_of_working {f : Fsm} {s : State} (hw : Working f s) : s.canWork = true := by
  obtain ⟨-, hport, hrst⟩ := hw
  simp [State.canWork, hport, hrst]

theorem working_of_canWork {s : State} (h : s.canWork = true) : Working s.fsm s := by
  simpa [State.canWork, Working] using h

theorem State.atToc_of_fsm {s : State} (h : s.fsm ≠ .sToc) (ph : TocPhase) : s.atToc ph = false := by
  simp [State.atToc, h]

/-! ### The rows of the Codes in the Codes' own states -/

theorem exec_tocCode0_of_sC0 {s : State} (hw : Working .sC0 s) : exec .tocCode0 s = .next (code0Work s) := by
  change execTocCode0 s = _
  rw [execTocCode0, State.atToc_of_fsm (by simp [hw.1]), if_neg (by decide), if_pos ⟨State.canWork_of_working hw, hw.1⟩]

theorem exec_tocCode1_of_sC1 {s : State} (hw : Working .sC1 s) : exec .tocCode1 s = .next (code1Work s) := by
  change execTocCode1 s = _
  rw [execTocCode1, State.atToc_of_fsm (by simp [hw.1]), if_neg (by decide), if_pos ⟨State.canWork_of_working hw, hw.1⟩]

theorem exec_tocCode2_of_sC2 {s : State} (hw : Working .sC2 s) (hf : s.dp.fidx ≠ 0) :
    exec .tocCode2 s = .next (code2Work s) := by
  change execTocCode2 s = _
  rw [execTocCode2, State.atToc_of_fsm (by simp [hw.1]), if_neg (by decide),
    if_pos ⟨State.canWork_of_working hw, hw.1, hf⟩]

theorem code_cases (c : BitVec 2) : c = 0 ∨ c = 1 ∨ c = 2 ∨ c = 3 := by
  revert c
  decide

/-- Everything a Code's row can do: the dispatch in S_TOC, or the Code's own work (R221). -/
theorem exec_tocCodeRow_next {c : BitVec 2} {s t : State} (h : exec (tocCodeRow c) s = .next t) :
    (s.atToc .code = true ∧ t = dispatchCode c (codeState c) s)
      ∨ (Working .sC0 s ∧ t = code0Work s)
      ∨ (Working .sC1 s ∧ t = code1Work s)
      ∨ (Working .sC2 s ∧ s.dp.fidx ≠ 0 ∧ t = code2Work s) := by
  have hworking : ∀ {f}, s.canWork = true → s.fsm = f → Working f s := fun hc hf => hf ▸ working_of_canWork hc
  obtain rfl | rfl | rfl | rfl := code_cases c
  · change execTocCode0 s = _ at h
    unfold execTocCode0 at h
    split at h
    · exact .inl ⟨‹_›, (Host.Outcome.next.inj h).symm⟩
    · split at h
      · obtain ⟨hc, hf⟩ := ‹_ ∧ _›
        exact .inr (.inl ⟨hworking hc hf, (Host.Outcome.next.inj h).symm⟩)
      · cases h
  · change execTocCode1 s = _ at h
    unfold execTocCode1 at h
    split at h
    · exact .inl ⟨‹_›, (Host.Outcome.next.inj h).symm⟩
    · split at h
      · obtain ⟨hc, hf⟩ := ‹_ ∧ _›
        exact .inr (.inr (.inl ⟨hworking hc hf, (Host.Outcome.next.inj h).symm⟩))
      · cases h
  · change execTocCode2 s = _ at h
    unfold execTocCode2 at h
    split at h
    · exact .inl ⟨‹_›, (Host.Outcome.next.inj h).symm⟩
    · split at h
      · obtain ⟨hc, hf, hidx⟩ := ‹_ ∧ _›
        exact .inr (.inr (.inr ⟨hworking hc hf, hidx, (Host.Outcome.next.inj h).symm⟩))
      · cases h
  · change execTocCode3 s = _ at h
    unfold execTocCode3 at h
    split at h
    · exact .inl ⟨‹_›, (Host.Outcome.next.inj h).symm⟩
    · cases h

/-! ### The Code 3 rows and the length rows where they are due -/

/-- A Code 3 row of the running header, where no padding chain is due, fixes the region (R167). -/
theorem exec_c3Row_of_sC3p {s : State} {v : Bool} {m : BitVec 6} (hw : Working .sC3p s)
    (hc : s.c3Is v false m = true) : exec (c3Row v false m) s = .next (fixRegion s) := by
  rw [exec_c3Row, c3Form, if_neg (by simp [hw.1]), if_pos ⟨State.canWork_of_working hw, hw.1, hc, rfl⟩]

theorem exec_c3Row_of_sC3f {s : State} {v p : Bool} {m : BitVec 6} (hw : Working .sC3f s)
    (hc : s.c3Is v p m = true) (hexp : s.expectsLen = false) : exec (c3Row v p m) s = .next (c3Frame s) := by
  rw [exec_c3Row, c3Form, if_neg (by simp [hw.1]), if_neg (by simp [hw.1]),
    if_pos ⟨State.canWork_of_working hw, hw.1, hc, hexp⟩]

theorem c3Is_current (s : State) : s.c3Is s.dp.vbr s.dp.padf s.dp.m = true := by simp [State.c3Is]

section LenRow

variable {s : State} {i : Instr} {v n : Nat} (hi : lenRowValue i = some (v, n)) (hexp : s.expectsLen = true)
include hi hexp

theorem exec_lenRow_of_sC2 (hw : Working .sC2 s) : exec i s = .next (lenCode2 v n s) := by
  rw [exec_lenRow hi, lenForm, if_pos ⟨State.canWork_of_working hw, hexp⟩, if_pos hw.1]

theorem exec_lenRow_of_interleaved (hw : Working .sC3f s) (hl : s.params.layout = .interleaved) :
    exec i s = .next (lenInterleaved v n s) := by
  rw [exec_lenRow hi, lenForm, if_pos ⟨State.canWork_of_working hw, hexp⟩, if_neg (by simp [hw.1]), hl]

theorem exec_lenRow_of_grouped (hw : Working .sC3f s) (hl : s.params.layout = .grouped) :
    exec i s = .next (lenGrouped v n s) := by
  rw [exec_lenRow hi, lenForm, if_pos ⟨State.canWork_of_working hw, hexp⟩, if_neg (by simp [hw.1]), hl]

end LenRow

end Sys2Proof.Machine

/-! What each work of the Codes can do, branch by branch (42_code_splitter.md R162 to R171). -/

namespace Sys2Proof.Machine

theorem code0Work_cases (s : State) :
    (s.dp.fidx = 0 ∧ code0Work s = emit 1 (s.dp.len.toNat - 1) s.dp.pos.toNat s)
      ∨ (s.dp.fidx ≠ 0 ∧ code0Work s = complete s) := by
  by_cases h : s.dp.fidx = 0
  · exact .inl ⟨h, if_pos h⟩
  · exact .inr ⟨h, if_neg h⟩

theorem code1Work_cases (s : State) :
    (s.dp.fidx = 0 ∧ s.dp.len.toNat % 2 = 0 ∧ code1Work s = raise .nonOddLength s)
      ∨ (s.dp.fidx = 0 ∧ s.dp.len.toNat % 2 ≠ 0
          ∧ code1Work s = emit 1 ((s.dp.len.toNat - 1) / 2) s.dp.pos.toNat s)
      ∨ (s.dp.fidx = 1
          ∧ code1Work s = emit (1 + (s.dp.len.toNat - 1) / 2) ((s.dp.len.toNat - 1) / 2) s.dp.pos.toNat s)
      ∨ (s.dp.fidx ≠ 0 ∧ s.dp.fidx ≠ 1 ∧ code1Work s = complete s) := by
  by_cases h0 : s.dp.fidx = 0
  · by_cases heven : s.dp.len.toNat % 2 = 0
    · exact .inl ⟨h0, heven, (if_pos h0).trans (if_pos heven)⟩
    · exact .inr (.inl ⟨h0, heven, (if_pos h0).trans (if_neg heven)⟩)
  · by_cases h1 : s.dp.fidx = 1
    · exact .inr (.inr (.inl ⟨h1, (if_neg h0).trans (if_pos h1)⟩))
    · exact .inr (.inr (.inr ⟨h0, h1, (if_neg h0).trans (if_neg h1)⟩))

theorem code2Work_cases (s : State) :
    (s.dp.fidx = 1
        ∧ code2Work s = emit s.dp.pos.toNat (s.dp.len.toNat - s.dp.pos.toNat) s.dp.pos.toNat s)
      ∨ (s.dp.fidx ≠ 1 ∧ code2Work s = complete s) := by
  by_cases h : s.dp.fidx = 1
  · exact .inl ⟨h, if_pos h⟩
  · exact .inr ⟨h, if_neg h⟩

/-- Frame 0 of CODE2 does not fit, or is emitted (R164). -/
theorem lenCode2_cases (v n : Nat) (s : State) :
    (s.dp.len.toNat - (1 + n) < v ∧ lenCode2 v n s = raise .lengthOverflow (withPos (1 + n) s))
      ∨ (v ≤ s.dp.len.toNat - (1 + n) ∧ lenCode2 v n s = emit (1 + n) v (1 + n + v) (withPos (1 + n) s)) := by
  by_cases h : s.dp.len.toNat - (1 + n) < v
  · exact .inl ⟨h, if_pos h⟩
  · exact .inr ⟨Nat.not_lt.mp h, if_neg h⟩

/-- An interleaved frame runs past the region, or is emitted (R170). -/
theorem lenInterleaved_cases (v n : Nat) (s : State) :
    (s.dp.regionEnd.toNat < s.dp.pos.toNat + n + v
        ∧ lenInterleaved v n s = raise .packetTooSmall (withPos (s.dp.pos.toNat + n) s))
      ∨ (s.dp.pos.toNat + n + v ≤ s.dp.regionEnd.toNat
        ∧ lenInterleaved v n s
          = emit (s.dp.pos.toNat + n) v (s.dp.pos.toNat + n + v) (withPos (s.dp.pos.toNat + n) s)) := by
  by_cases h : s.dp.regionEnd.toNat < s.dp.pos.toNat + n + v
  · exact .inl ⟨h, if_pos h⟩
  · exact .inr ⟨Nat.not_lt.mp h, if_neg h⟩

/-- Where the next frame of a Code 3 packet stands when no length field is due: its length, and the cursor after it. -/
inductive NextFrame (s : State) (n pos' : Nat) : Prop
  /-- One of M equal frames (R169). -/
  | cbr (hv : s.dp.vbr = false) (hidx : s.dp.fidx ≠ s.dp.m) (hdvd : cbrRemainder s % s.dp.m.toNat = 0)
      (hn : n = cbrRemainder s / s.dp.m.toNat) (hpos : pos' = s.dp.pos.toNat + n)
  /-- A frame of the grouped layout whose length was read before, the sum of the lengths being checked (R171). -/
  | grouped (hv : s.dp.vbr = true) (hl : s.params.layout = .grouped) (hidx : s.dp.fidx.toNat + 1 < s.dp.m.toNat)
      (hsum : s.dp.fidx = 0 → s.dp.pos.toNat + s.dp.lsum.toNat ≤ s.dp.regionEnd.toNat)
      (hn : n = (s.dp.lens.getD s.dp.fidx.toNat 0).toNat) (hpos : pos' = s.dp.pos.toNat + n)
  /-- The last frame of a VBR packet, which leaves the cursor (R170, R171). -/
  | last (hv : s.dp.vbr = true) (hidx : s.dp.fidx.toNat + 1 = s.dp.m.toNat)
      (hsum : s.params.layout = .grouped → s.dp.fidx = 0 →
        s.dp.pos.toNat + s.dp.lsum.toNat ≤ s.dp.regionEnd.toNat)
      (hn : n = s.dp.regionEnd.toNat - s.dp.pos.toNat) (hpos : pos' = s.dp.pos.toNat)

/-- What the frames of Code 3 come to where no length field is due: COMPLETE, an error, or the next frame (R168 to
R171). -/
inductive FrameOutcome (s : State) : State → Prop
  | complete : FrameOutcome s (complete s)
  | raise (e : ParseError) : FrameOutcome s (raise e s)
  | emit (n pos' : Nat) (hm : s.dp.m ≠ 0) (h : NextFrame s n pos') :
      FrameOutcome s (emit s.dp.pos.toNat n pos' s)

section C3Frame

variable {s : State} (hm : s.dp.m ≠ 0)
include hm

theorem c3Frame_of_cbr (hv : s.dp.vbr = false) : c3Frame s = cbrFrame s := (if_neg hm).trans (if_pos hv)

theorem c3Frame_of_interleaved (hv : s.dp.vbr = true) (hl : s.params.layout = .interleaved) :
    c3Frame s = lastFrame s := by
  rw [c3Frame, if_neg hm, if_neg (by simp [hv]), hl]

theorem c3Frame_of_grouped (hv : s.dp.vbr = true) (hl : s.params.layout = .grouped) :
    c3Frame s = groupedFrame s := by
  rw [c3Frame, if_neg hm, if_neg (by simp [hv]), hl]

theorem cbrFrame_outcome (hv : s.dp.vbr = false) : FrameOutcome s (cbrFrame s) := by
  unfold cbrFrame
  split
  · exact .complete
  · split
    · exact .raise _
    · exact .emit _ _ hm (.cbr hv ‹_› (not_not.mp ‹_›) rfl rfl)

theorem lastFrame_outcome (hv : s.dp.vbr = true)
    (hsum : s.params.layout = .grouped → s.dp.fidx = 0 →
      s.dp.pos.toNat + s.dp.lsum.toNat ≤ s.dp.regionEnd.toNat) : FrameOutcome s (lastFrame s) := by
  unfold lastFrame
  split
  · exact .emit _ _ hm (.last hv ‹_› hsum rfl rfl)
  · exact .complete

theorem groupedFrame_outcome (hv : s.dp.vbr = true) (hl : s.params.layout = .grouped) :
    FrameOutcome s (groupedFrame s) := by
  unfold groupedFrame
  split
  · exact .raise _
  · rename_i hfits
    have hsum : s.dp.fidx = 0 → s.dp.pos.toNat + s.dp.lsum.toNat ≤ s.dp.regionEnd.toNat :=
      fun h0 => Nat.not_lt.mp fun hlt => hfits ⟨h0, hlt⟩
    split
    · exact .emit _ _ hm (.grouped hv hl ‹_› hsum rfl rfl)
    · exact lastFrame_outcome hm hv fun _ => hsum

end C3Frame

theorem c3Frame_outcome (s : State) : FrameOutcome s (c3Frame s) := by
  by_cases hm : s.dp.m = 0
  · rw [c3Frame, if_pos hm]
    exact .complete
  cases hv : s.dp.vbr with
  | false =>
    rw [c3Frame_of_cbr hm hv]
    exact cbrFrame_outcome hm hv
  | true =>
    cases hl : s.params.layout with
    | interleaved =>
      rw [c3Frame_of_interleaved hm hv hl]
      exact lastFrame_outcome hm hv (by simp [hl])
    | grouped =>
      rw [c3Frame_of_grouped hm hv hl]
      exact groupedFrame_outcome hm hv hl

end Sys2Proof.Machine

/-! What every packet row leaves unchanged (42_code_splitter.md and 41_length_decoder.md, "Written"). -/

namespace Sys2Proof.Machine

/-- Everything a packet row can do (R220): one constructor for each work of the rules. -/
inductive RowEffect (s : State) : State → Prop
  | config (k : BitVec 5) (hat : s.atToc .config = true) : RowEffect s (afterConfig k s)
  | stereo (b : Bool) (hat : s.atToc .stereo = true) : RowEffect s (afterStereo b s)
  | code (c : BitVec 2) (hat : s.atToc .code = true) : RowEffect s (dispatchCode c (codeState c) s)
  | code0 (hw : Working .sC0 s) : RowEffect s (code0Work s)
  | code1 (hw : Working .sC1 s) : RowEffect s (code1Work s)
  | code2 (hw : Working .sC2 s) (hidx : s.dp.fidx ≠ 0) : RowEffect s (code2Work s)
  | header (v p : Bool) (m : BitVec 6) (hw : Working .sC3h s) : RowEffect s (readHeader v p m s)
  | region (hw : Working .sC3p s) : RowEffect s (fixRegion s)
  | frame (hw : Working .sC3f s) (hexp : s.expectsLen = false) : RowEffect s (c3Frame s)
  | len2 (v n : Nat) (hw : Working .sC2 s) (hexp : s.expectsLen = true) : RowEffect s (lenCode2 v n s)
  | interleaved (v n : Nat) (hexp : s.expectsLen = true) : RowEffect s (lenInterleaved v n s)
  | grouped (v n : Nat) (hexp : s.expectsLen = true) : RowEffect s (lenGrouped v n s)
  | pad (b : Byte) (last : Bool) (hw : Working .sC3p s) (hp : s.dp.padf = true) : RowEffect s (padByte b last s)

/-- `exec` of a packet row answers a next state only by one of the rules' works. -/
theorem exec_packetRow_next {i : Instr} {s t : State} (hi : isPacketRow i = true) (h : exec i s = .next t) :
    RowEffect s t := by
  have hworking : ∀ {f}, s.canWork = true → s.fsm = f → Working f s := fun hc hf => hf ▸ working_of_canWork hc
  have hpad : ∀ {row b last}, padForm row b last s = .next t → RowEffect s t := fun h => by
    obtain ⟨hc, hf, hp, rfl⟩ := padForm_next h
    exact .pad _ _ (hworking hc hf) hp
  obtain ⟨k, rfl⟩ | ⟨b, rfl⟩ | ⟨c, rfl⟩ | ⟨v, p, m, rfl⟩ | ⟨v, n, hlen⟩ | rfl | ⟨t', rfl⟩ := packetRow_cases hi
  · rw [exec_tocConfigRow] at h
    obtain ⟨hat, rfl⟩ := writeConfig_next h
    exact .config k hat
  · rw [exec_tocStereoRow] at h
    obtain ⟨hat, rfl⟩ := writeStereo_next h
    exact .stereo b hat
  · obtain ⟨hat, rfl⟩ | ⟨hw, rfl⟩ | ⟨hw, rfl⟩ | ⟨hw, hidx, rfl⟩ := exec_tocCodeRow_next h
    · exact .code c hat
    · exact .code0 hw
    · exact .code1 hw
    · exact .code2 hw hidx
  · rw [exec_c3Row] at h
    obtain ⟨hc, ⟨hf, rfl⟩ | ⟨hf, -, -, rfl⟩ | ⟨hf, -, hexp, rfl⟩⟩ := c3Form_next h
    · exact .header v p m (hworking hc hf)
    · exact .region (hworking hc hf)
    · exact .frame (hworking hc hf) hexp
  · rw [exec_lenRow hlen] at h
    obtain ⟨hc, hexp, ⟨hf, rfl⟩ | ⟨-, -, rfl⟩ | ⟨-, -, rfl⟩⟩ := lenForm_next h
    · exact .len2 v n (hworking hc hf) hexp
    · exact .interleaved v n hexp
    · exact .grouped v n hexp
  · exact hpad h
  · exact hpad h

/-- What no packet row changes: the packet buffer, SINK and its counters, CTRL, STATUS, PKT_LEN, what START latched,
the parameters, and the host's side. -/
def RowFrame (s t : State) : Prop :=
  t.pktBuf = s.pktBuf
    ∧ t.params = s.params ∧ t.sink = s.sink ∧ t.regs.numFrames = s.regs.numFrames ∧ t.dp.nf = s.dp.nf
    ∧ t.regs.ctrl = s.regs.ctrl ∧ t.regs.status = s.regs.status ∧ t.regs.pktLen = s.regs.pktLen
    ∧ t.dp.len = s.dp.len ∧ t.dp.strict = s.dp.strict
    ∧ t.rst = s.rst ∧ t.toc = s.toc ∧ t.sinkReady = s.sinkReady ∧ t.host = s.host ∧ t.busData = s.busData
    ∧ t.draws = s.draws

theorem RowFrame.refl (s : State) : RowFrame s s :=
  ⟨rfl, rfl, rfl, rfl, rfl, rfl, rfl, rfl, rfl, rfl, rfl, rfl, rfl, rfl, rfl, rfl⟩

theorem rowFrame_raise (e : ParseError) (s : State) : RowFrame s (raise e s) := RowFrame.refl s

theorem rowFrame_complete (s : State) : RowFrame s (complete s) := RowFrame.refl s

theorem rowFrame_emit (off n pos' : Nat) (s : State) : RowFrame s (emit off n pos' s) := by
  obtain ⟨-, -, h⟩ | ⟨-, h⟩ := emit_cases off n pos' s <;> rw [h] <;> exact RowFrame.refl s

theorem rowFrame_code0Work (s : State) : RowFrame s (code0Work s) := by
  obtain ⟨-, h⟩ | ⟨-, h⟩ := code0Work_cases s <;> rw [h]
  · exact rowFrame_emit ..
  · exact rowFrame_complete s

theorem rowFrame_code1Work (s : State) : RowFrame s (code1Work s) := by
  obtain ⟨-, -, h⟩ | ⟨-, -, h⟩ | ⟨-, h⟩ | ⟨-, -, h⟩ := code1Work_cases s <;> rw [h]
  · exact rowFrame_raise ..
  · exact rowFrame_emit ..
  · exact rowFrame_emit ..
  · exact rowFrame_complete s

theorem rowFrame_code2Work (s : State) : RowFrame s (code2Work s) := by
  obtain ⟨-, h⟩ | ⟨-, h⟩ := code2Work_cases s <;> rw [h]
  · exact rowFrame_emit ..
  · exact rowFrame_complete s

theorem FrameOutcome.rowFrame {s t : State} (h : FrameOutcome s t) : RowFrame s t := by
  cases h with
  | complete => exact rowFrame_complete s
  | raise e => exact rowFrame_raise e s
  | emit => exact rowFrame_emit ..

theorem rowFrame_lenCode2 (v n : Nat) (s : State) : RowFrame s (lenCode2 v n s) := by
  obtain ⟨-, h⟩ | ⟨-, h⟩ := lenCode2_cases v n s <;> rw [h]
  · exact rowFrame_raise .lengthOverflow (withPos (1 + n) s)
  · exact rowFrame_emit _ _ _ (withPos (1 + n) s)

theorem rowFrame_lenInterleaved (v n : Nat) (s : State) : RowFrame s (lenInterleaved v n s) := by
  obtain ⟨-, h⟩ | ⟨-, h⟩ := lenInterleaved_cases v n s <;> rw [h]
  · exact rowFrame_raise .packetTooSmall (withPos (s.dp.pos.toNat + n) s)
  · exact rowFrame_emit _ _ _ (withPos (s.dp.pos.toNat + n) s)

theorem rowFrame_readHeader (v p : Bool) (m : BitVec 6) (s : State) : RowFrame s (readHeader v p m s) := by
  obtain h | h | h := readHeader_cases v p m s <;> rw [h] <;> exact RowFrame.refl s

theorem rowFrame_padByte (b : Byte) (last : Bool) (s : State) : RowFrame s (padByte b last s) := by
  obtain h | ⟨-, h⟩ | ⟨-, h⟩ := padByte_cases b last s <;> rw [h] <;> exact RowFrame.refl s

theorem RowEffect.rowFrame {s t : State} (h : RowEffect s t) : RowFrame s t := by
  cases h with
  | config | stereo | code | region | grouped => exact RowFrame.refl s
  | code0 => exact rowFrame_code0Work s
  | code1 => exact rowFrame_code1Work s
  | code2 => exact rowFrame_code2Work s
  | header => exact rowFrame_readHeader ..
  | frame => exact (c3Frame_outcome s).rowFrame
  | len2 => exact rowFrame_lenCode2 ..
  | interleaved => exact rowFrame_lenInterleaved ..
  | pad => exact rowFrame_padByte ..

/-- Settles O46: every work of a packet row has the frame. -/
theorem packetRowFrame : Obligations.PacketRowFrame := by
  intro i s t hi h
  obtain ⟨hmem, hframe⟩ := (exec_packetRow_next hi h).rowFrame
  exact ⟨fun a => by rw [hmem], hframe⟩

end Sys2Proof.Machine

/-! The block's fetch: what is read, what runs, and the fault of an unwritten byte (20_memory.md R62, 43_validity_fsm.md
R220, R224). -/

namespace Sys2Proof.Machine

/-! ### Block steps from the block's work -/

theorem blockStep_of_fault {s : State} {f : Fault} (h : nextWork s = .fault f) : blockStep s = .fault f := by
  simp [blockStep, h]

section Working

variable {f : Fsm} {s : State} (hw : Working f s)
include hw

theorem blockStep_of_fsmWork_run {i : Instr} {s' : State} (h : fsmWork s = .run i s') : blockStep s = exec i s' :=
  blockStep_of_run ((nextWork_of_working hw).trans h)

theorem blockStep_of_fsmWork_raise {e : ParseError} (h : fsmWork s = .raise e) : blockStep s = .next (raise e s) :=
  blockStep_of_raise ((nextWork_of_working hw).trans h)

theorem blockStep_of_fsmWork_fault {x : Fault} (h : fsmWork s = .fault x) : blockStep s = .fault x :=
  blockStep_of_fault ((nextWork_of_working hw).trans h)

end Working

theorem working_of_port_none {s : State} (hport : s.port = none) (hrst : s.rst = false) : Working s.fsm s :=
  ⟨rfl, hport, hrst⟩

theorem Working.countDown {f : Fsm} {s : State} (hw : Working f s) : Working f s.countDown := by
  rw [countDown_frame]
  exact hw

theorem awaitedField_countDown (s : State) : awaitedField s.countDown = awaitedField s := by
  rw [countDown_frame]
  rfl

theorem countDown_pktBuf (s : State) : s.countDown.pktBuf = s.pktBuf := by
  rw [countDown_frame]

/-! ### The read of an awaited field -/

theorem memRead_of_unwritten {s : State} {i : Nat} (h : Memory.read s.pktBuf i = none) (k : Byte → BlockWork) :
    memRead s i k = .fault (.unwrittenPacketByte i) := by
  simp [memRead, h]

/-- The state a field of one byte runs in: the TOC byte is kept (log 10). -/
def keepToc (f : Format) (b : Byte) (s : State) : State := if f = .tocConfig then { s with toc := b } else s

/-- A field that is no length field is one byte, read at its place. -/
theorem fsmWork_of_awaits_byte {s : State} {f : Format} {p stop : Nat} (h : awaitedField s = some (f, p, stop))
    (hf : f ≠ .len) (hp : p < stop) : fsmWork s = memRead s p fun b => runField f [b] (keepToc f b s) := by
  cases hs : s.fsm <;> simp only [awaitedField, hs, reduceCtorEq, Option.ite_none_right_eq_some, Option.some.injEq,
    Prod.mk.injEq] at h
  case sToc =>
    obtain ⟨hph, rfl, rfl, rfl⟩ := h
    have hlen : s.dp.len ≠ 0 := fun h0 => by simp [h0] at hp
    simp only [fsmWork, hs, tocWork, hph, if_neg hlen, keepToc, if_pos]
  case sC2 => exact absurd h.2.1.symm hf
  case sC3h =>
    obtain ⟨rfl, rfl, rfl⟩ := h
    simp [fsmWork, hs, Nat.not_lt.mpr (Nat.succ_le_of_lt hp), keepToc]
  case sC3p =>
    obtain ⟨hpad, rfl, rfl, rfl⟩ := h
    simp [fsmWork, hs, hpad, Nat.not_le.mpr hp, keepToc]
  case sC3f => exact absurd h.2.1.symm hf

/-- The bytes of a field that decodes whole: one byte, or the two of a LEN2. -/
theorem decodeField_whole {f : Format} {used : List Byte} {i : Instr} (h : decodeField f used = .ok (i, [])) :
    (f ≠ .len ∧ ∃ b, used = [b])
      ∨ (f = .len ∧ ((∃ b0, used = [b0] ∧ b0.toNat ≤ 251) ∨ ∃ b0 b1, used = [b0, b1] ∧ 252 ≤ b0.toNat)) := by
  match used with
  | [] => cases f <;> cases h
  | b0 :: rest =>
    by_cases hf : f = .len
    · subst hf
      by_cases hb : b0.toNat ≤ 251
      · rw [decodeField_len_oneByte hb] at h
        cases h
        exact .inr ⟨rfl, .inl ⟨b0, rfl, hb⟩⟩
      · cases rest with
        | nil => simp [decodeField, hb] at h
        | cons b1 rest' =>
          rw [decodeField_len_twoBytes (by omega)] at h
          cases h
          exact .inr ⟨rfl, .inr ⟨b0, b1, rfl, by omega⟩⟩
    · have hrest : rest = [] := by
        cases f
        case len => exact absurd rfl hf
        all_goals
          cases h
          rfl
      exact .inl ⟨hf, b0, by rw [hrest]⟩

theorem runField_of_decode {f : Format} {used rest : List Byte} {i : Instr} (h : decodeField f used = .ok (i, rest))
    (s : State) : runField f used s = .run i s := by
  rw [runField, h]

/-- The block's work where the awaited field stands in the buffer: the row it decodes to (R62, R80). -/
theorem fsmWork_of_field {s : State} {f : Format} {p stop : Nat} {used : List Byte} {i : Instr}
    (h : awaitedField s = some (f, p, stop)) (hstop : p + used.length ≤ stop) (hmem : StandsAt s p used)
    (hdec : decodeField f used = .ok (i, [])) : fsmWork s = .run i (keepToc f (used.headD 0) s) := by
  obtain ⟨hf, b, rfl⟩ | ⟨rfl, ⟨b0, rfl, hb⟩ | ⟨b0, b1, rfl, hb⟩⟩ := decodeField_whole hdec
  · have hread : Memory.read s.pktBuf p = some b := hmem 0 Nat.one_pos
    rw [fsmWork_of_awaits_byte h hf hstop, memRead_of_read hread, runField_of_decode hdec, List.headD_cons]
  · have hread : Memory.read s.pktBuf p = some b0 := hmem 0 Nat.one_pos
    rw [decodeField_len_oneByte hb] at hdec
    cases hdec
    exact (fsmWork_of_awaits_len h).trans (lenField_oneByte hstop hread hb)
  · have hread : Memory.read s.pktBuf p = some b0 := hmem 0 Nat.two_pos
    have hread1 : Memory.read s.pktBuf (p + 1) = some b1 := hmem 1 Nat.one_lt_two
    rw [decodeField_len_twoBytes hb] at hdec
    cases hdec
    exact (fsmWork_of_awaits_len h).trans (lenField_twoBytes hb hstop hread hread1)

/-- Settles O7: the block's turn is the block step of the state with the shorter delay, whose work is the field's
row. -/
theorem stepRunsTheDecodedField : Obligations.StepRunsTheDecodedField := by
  intro s f p stop used i hport hrst hturn haw hstop hmem hdec
  have hw : Working s.fsm s.countDown := (working_of_port_none hport hrst).countDown
  have hmem' : StandsAt s.countDown p used := fun k hk => by rw [countDown_pktBuf]; exact hmem k hk
  rw [step_of_blockTurn hturn,
    blockStep_of_fsmWork_run hw (fsmWork_of_field ((awaitedField_countDown s).trans haw) hstop hmem' hdec), keepToc]

/-! ### The read of an unwritten byte -/

theorem fsmWork_of_unwritten_first {s : State} {f : Format} {p stop : Nat} (h : awaitedField s = some (f, p, stop))
    (hp : p < stop) (hmem : Memory.read s.pktBuf p = none) : fsmWork s = .fault (.unwrittenPacketByte p) := by
  by_cases hf : f = .len
  · subst hf
    rw [fsmWork_of_awaits_len h, lenField, if_neg (by omega), memRead_of_unwritten hmem]
  · rw [fsmWork_of_awaits_byte h hf hp, memRead_of_unwritten hmem]

theorem lenField_unwritten_second {s : State} {p stop : Nat} {b0 : Byte} (hb : 252 ≤ b0.toNat) (hend : p + 1 < stop)
    (h0 : Memory.read s.pktBuf p = some b0) (h1 : Memory.read s.pktBuf (p + 1) = none) :
    lenField p stop s = .fault (.unwrittenPacketByte (p + 1)) := by
  rw [lenField, if_neg (by omega), memRead_of_read h0, if_neg (by omega), if_neg (by omega), memRead_of_unwritten h1]

/-- Settles O10: the fault of the first byte for every format, and of a length field's second byte. -/
theorem unwrittenFieldByteFaults : Obligations.UnwrittenFieldByteFaults := by
  intro s f p stop hport hrst hturn haw
  have hw : Working s.fsm s.countDown := (working_of_port_none hport hrst).countDown
  have haw' := (awaitedField_countDown s).trans haw
  rw [step_of_blockTurn hturn]
  refine ⟨fun hp hmem => ?_, ?_⟩
  · exact blockStep_of_fsmWork_fault hw (fsmWork_of_unwritten_first haw' hp (by rwa [countDown_pktBuf]))
  · rintro rfl hend b0 h0 hb h1
    rw [← countDown_pktBuf s] at h0 h1
    exact blockStep_of_fsmWork_fault hw
      ((fsmWork_of_awaits_len haw').trans (lenField_unwritten_second hb hend h0 h1))

/-! ### The rows run from what is kept -/

theorem fsmWork_of_sC0 {s : State} (h : s.fsm = .sC0) : fsmWork s = .run .tocCode0 s := by
  simp [fsmWork, h]

theorem fsmWork_of_sC1 {s : State} (h : s.fsm = .sC1) : fsmWork s = .run .tocCode1 s := by
  simp [fsmWork, h]

theorem fsmWork_of_sC2 {s : State} (h : s.fsm = .sC2) (hexp : s.expectsLen = false) :
    fsmWork s = .run .tocCode2 s := by
  simp [fsmWork, h, hexp]

theorem fsmWork_of_sC3p {s : State} (h : s.fsm = .sC3p) (hp : s.dp.padf = false) :
    fsmWork s = .run s.c3Current s := by
  simp [fsmWork, h, hp]

theorem fsmWork_of_sC3f {s : State} (h : s.fsm = .sC3f) (hexp : s.expectsLen = false) :
    fsmWork s = .run s.c3Current s := by
  simp [fsmWork, h, hexp]

theorem fsmWork_of_sToc {s : State} (h : s.fsm = .sToc) : fsmWork s = tocWork s := by
  simp [fsmWork, h]

/-- The row that runs on the state as it stands also runs while a host action waits (log 1). -/
theorem step_of_turn_run {f : Fsm} {s : State} {i : Instr} (hw : Working f s) (hturn : BlockTurn s)
    (h : fsmWork s = .run i s) : step s = exec i s.countDown := by
  have hnext : nextWork s.countDown = .run i s.countDown := by
    rw [nextWork_countDown, nextWork_of_working hw, h, withQueue, ← countDown_frame]
  rw [step_of_blockTurn hturn, blockStep_of_run hnext]

/-- Settles O8: one work of the FSM for each state in which no byte is due. -/
theorem stepRunsTheCurrentRow : Obligations.StepRunsTheCurrentRow := by
  intro s hport hrst hturn
  have hrun {i : Instr} (h : fsmWork s = .run i s) : step s = exec i s.countDown :=
    step_of_turn_run (working_of_port_none hport hrst) hturn h
  refine ⟨fun hf hph => hrun ?_, fun hf hph => hrun ?_, fun hf => hrun ?_, fun hf => hrun ?_, fun hf hexp => hrun ?_,
    fun hf hp => hrun ?_, fun hf hexp => hrun ?_⟩
  · exact (fsmWork_of_sToc hf).trans (tocWork_stereo hph)
  · exact (fsmWork_of_sToc hf).trans (tocWork_code hph)
  · exact fsmWork_of_sC0 hf
  · exact fsmWork_of_sC1 hf
  · exact fsmWork_of_sC2 hf hexp
  · exact fsmWork_of_sC3p hf hp
  · exact fsmWork_of_sC3f hf hexp

end Sys2Proof.Machine

/-! What one block step can do: everything a step of the block answers, with what its guards and its fetch say
(43_validity_fsm.md R220, R221, R224). -/

namespace Sys2Proof.Machine

/-- A block step to a next state: one constructor for each work of the FSM. -/
inductive BlockEffect (s : State) : State → Prop
  /-- Held in reset, or nothing to do. -/
  | rest (h : s.rst = true ∨ s.fsm = .idle) : BlockEffect s s
  | accept (d : Desc) (hrst : s.rst = false) (hport : s.port = some d) : BlockEffect s (acceptDesc d s)
  | finish (hw : Working .sFin s) : BlockEffect s (finish s)
  /-- A field is not there. -/
  | raise (e : ParseError) (hw : Working s.fsm s) (hbusy : s.fsm ≠ .idle) (hfin : s.fsm ≠ .sFin) :
      BlockEffect s (raise e s)
  | config (b : Byte) (hw : Working .sToc s) (hph : s.tocPhase = .config) (hlen : s.dp.len ≠ 0) :
      BlockEffect s (afterConfig (b.extractLsb' 3 5) { s with toc := b })
  | stereo (hw : Working .sToc s) (hph : s.tocPhase = .stereo) : BlockEffect s (afterStereo (flagBit s.toc 2) s)
  | code (c : BitVec 2) (hw : Working .sToc s) (hph : s.tocPhase = .code) :
      BlockEffect s (dispatchCode c (codeState c) s)
  | code0 (hw : Working .sC0 s) : BlockEffect s (code0Work s)
  | code1 (hw : Working .sC1 s) : BlockEffect s (code1Work s)
  | len2 (i : Instr) (v n : Nat) (hw : Working .sC2 s) (hidx : s.dp.fidx = 0) (hwf : i.wellFormed = true)
      (hval : lenRowValue i = some (v, n)) (hend : 1 + n ≤ s.dp.len.toNat) : BlockEffect s (lenCode2 v n s)
  | code2 (hw : Working .sC2 s) (hidx : s.dp.fidx ≠ 0) : BlockEffect s (code2Work s)
  | header (v p : Bool) (m : BitVec 6) (hw : Working .sC3h s) (hlen : 2 ≤ s.dp.len.toNat) :
      BlockEffect s (readHeader v p m s)
  | pad (b : Byte) (last : Bool) (hw : Working .sC3p s) (hp : s.dp.padf = true)
      (hleft : s.dp.pos.toNat < s.dp.len.toNat) : BlockEffect s (padByte b last s)
  | region (hw : Working .sC3p s) (hp : s.dp.padf = false) : BlockEffect s (fixRegion s)
  | interleaved (i : Instr) (v n : Nat) (hw : Working .sC3f s) (hexp : s.expectsLen = true)
      (hl : s.params.layout = .interleaved) (hwf : i.wellFormed = true) (hval : lenRowValue i = some (v, n))
      (hend : s.dp.pos.toNat + n ≤ s.dp.regionEnd.toNat) : BlockEffect s (lenInterleaved v n s)
  | grouped (i : Instr) (v n : Nat) (hw : Working .sC3f s) (hexp : s.expectsLen = true)
      (hl : s.params.layout = .grouped) (hwf : i.wellFormed = true) (hval : lenRowValue i = some (v, n))
      (hend : s.dp.pos.toNat + n ≤ s.dp.regionEnd.toNat) : BlockEffect s (lenGrouped v n s)
  | frame (hw : Working .sC3f s) (hexp : s.expectsLen = false) : BlockEffect s (c3Frame s)

/-- The answers of a block step: a next state, or the fault of a byte that is not written. -/
inductive BlockAnswer (s : State) : Host.Outcome State Fault Refusal → Prop
  | next {t : State} (h : BlockEffect s t) : BlockAnswer s (.next t)
  | fault (j : Nat) (hj : j < s.dp.len.toNat ∨ j < s.dp.regionEnd.toNat) :
      BlockAnswer s (.fault (.unwrittenPacketByte j))

/-! ### LEN_DECODE -/

/-- LEN_DECODE fails, or decodes a field inside the window, or meets an unwritten byte of the window (R140). -/
theorem lenField_cases (p stop : Nat) (s : State) :
    lenField p stop s = .raise .packetTooSmall
      ∨ (∃ i v n, i.wellFormed = true ∧ lenRowValue i = some (v, n) ∧ p + n ≤ stop ∧ lenField p stop s = .run i s)
      ∨ ∃ j, j < stop ∧ lenField p stop s = .fault (.unwrittenPacketByte j) := by
  by_cases hp : stop ≤ p
  · exact .inl (lenField_empty hp)
  cases h0 : Memory.read s.pktBuf p with
  | none =>
    refine .inr (.inr ⟨p, by omega, ?_⟩)
    rw [lenField, if_neg hp, memRead_of_unwritten h0]
  | some b0 =>
    by_cases hb : b0.toNat ≤ 251
    · exact .inr (.inl ⟨.len1 b0, _, _, decide_eq_true hb, rfl, by omega, lenField_oneByte (by omega) h0 hb⟩)
    by_cases hend : stop ≤ p + 1
    · exact .inl (lenField_cutShort (by omega) h0 (by omega) hend)
    cases h1 : Memory.read s.pktBuf (p + 1) with
    | none => exact .inr (.inr ⟨p + 1, by omega, lenField_unwritten_second (by omega) (by omega) h0 h1⟩)
    | some b1 =>
      exact .inr (.inl ⟨.len2 b0 b1, _, _, decide_eq_true (by omega), rfl, by omega,
        lenField_twoBytes (by omega) (by omega) h0 h1⟩)

/-- Where a length field is due: the error, the fault, or the work `t v n` of the state that waits for it. -/
theorem blockAnswer_of_lenField {f : Fsm} {s : State} {p stop : Nat} {t : Nat → Nat → State} (hw : Working f s)
    (hbusy : s.fsm ≠ .idle) (hfin : s.fsm ≠ .sFin) (hwork : fsmWork s = lenField p stop s)
    (hstop : stop ≤ s.dp.len.toNat ∨ stop ≤ s.dp.regionEnd.toNat)
    (hexec : ∀ {i v n}, lenRowValue i = some (v, n) → exec i s = .next (t v n))
    (heffect : ∀ {i v n}, i.wellFormed = true → lenRowValue i = some (v, n) → p + n ≤ stop → BlockEffect s (t v n)) :
    BlockAnswer s (blockStep s) := by
  obtain h | ⟨i, v, n, hwf, hval, hend, h⟩ | ⟨j, hj, h⟩ := lenField_cases p stop s
  · rw [blockStep_of_fsmWork_raise hw (hwork.trans h)]
    exact .next (.raise _ (working_of_port_none hw.2.1 hw.2.2) hbusy hfin)
  · rw [blockStep_of_fsmWork_run hw (hwork.trans h), hexec hval]
    exact .next (heffect hwf hval hend)
  · rw [blockStep_of_fsmWork_fault hw (hwork.trans h)]
    exact .fault j (hstop.imp (hj.trans_le ·) (hj.trans_le ·))

/-- The same where one byte is due that is no length field. -/
theorem blockAnswer_of_byte {f : Fsm} {s : State} {p : Nat} {k : Byte → BlockWork} {t : Byte → State} (hw : Working f s)
    (hwork : fsmWork s = memRead s p k) (hp : p < s.dp.len.toNat)
    (hrun : ∀ b, ∃ i s', k b = .run i s' ∧ exec i s' = .next (t b)) (heffect : ∀ b, BlockEffect s (t b)) :
    BlockAnswer s (blockStep s) := by
  cases hread : Memory.read s.pktBuf p with
  | none =>
    rw [blockStep_of_fsmWork_fault hw (hwork.trans (memRead_of_unwritten hread k))]
    exact .fault p (.inl hp)
  | some b =>
    obtain ⟨i, s', hk, hexec⟩ := hrun b
    rw [blockStep_of_fsmWork_run hw (hwork.trans ((memRead_of_read hread k).trans hk)), hexec]
    exact .next (heffect b)

/-! ### The block's answer in each FSM state -/

section States

variable {s : State}

theorem blockAnswer_sToc (hw : Working .sToc s) : BlockAnswer s (blockStep s) := by
  have hwork := fsmWork_of_sToc hw.1
  cases hph : s.tocPhase with
  | config =>
    by_cases hlen : s.dp.len = 0
    · rw [blockStep_of_fsmWork_raise hw (hwork.trans (tocWork_empty hph hlen))]
      exact .next (.raise _ (working_of_port_none hw.2.1 hw.2.2) (by simp [hw.1]) (by simp [hw.1]))
    · have haw : awaitedField s = some (.tocConfig, 0, s.dp.len.toNat) := by simp [awaitedField, hw.1, hph]
      have hpos : 0 < s.dp.len.toNat := Nat.pos_of_ne_zero fun h => hlen (BitVec.eq_of_toNat_eq h)
      exact blockAnswer_of_byte hw (fsmWork_of_awaits_byte haw (by decide) hpos) hpos
        (fun b => ⟨_, _, runField_of_decode (decodeField_tocConfig b []) _,
          exec_tocConfigRow_of_working (s := { s with toc := b }) hw hph _⟩)
        fun b => .config b hw hph hlen
  | stereo =>
    rw [blockStep_of_fsmWork_run hw (hwork.trans (tocWork_stereo hph)), exec_tocStereoRow_of_working hw hph]
    exact .next (.stereo hw hph)
  | code =>
    rw [blockStep_of_fsmWork_run hw (hwork.trans (tocWork_code hph)), exec_tocCodeRow_of_working hw hph]
    exact .next (.code _ hw hph)

theorem expectsLen_of_sC2 (h : s.fsm = .sC2) : s.expectsLen = decide (s.dp.fidx = 0) := by
  simp [State.expectsLen, h]

theorem blockAnswer_sC2 (hw : Working .sC2 s) : BlockAnswer s (blockStep s) := by
  have hexp := expectsLen_of_sC2 hw.1
  by_cases hidx : s.dp.fidx = 0
  · rw [decide_eq_true hidx] at hexp
    have haw : awaitedField s = some (.len, 1, s.dp.len.toNat) := by simp [awaitedField, hw.1, hexp]
    exact blockAnswer_of_lenField hw (by simp [hw.1]) (by simp [hw.1]) (fsmWork_of_awaits_len haw) (.inl le_rfl)
      (fun hval => exec_lenRow_of_sC2 hval hexp hw) fun hwf hval hend => .len2 _ _ _ hw hidx hwf hval hend
  · rw [decide_eq_false hidx] at hexp
    rw [blockStep_of_fsmWork_run hw (fsmWork_of_sC2 hw.1 hexp), exec_tocCode2_of_sC2 hw hidx]
    exact .next (.code2 hw hidx)

theorem blockAnswer_sC3h (hw : Working .sC3h s) : BlockAnswer s (blockStep s) := by
  by_cases hlen : s.dp.len.toNat < 2
  · rw [blockStep_of_fsmWork_raise hw (fsmWork_header_missing hw hlen)]
    exact .next (.raise _ (working_of_port_none hw.2.1 hw.2.2) (by simp [hw.1]) (by simp [hw.1]))
  · have haw : awaitedField s = some (.c3h, 1, s.dp.len.toNat) := by simp [awaitedField, hw.1]
    exact blockAnswer_of_byte hw (fsmWork_of_awaits_byte haw (by decide) (by omega)) (by omega)
      (fun b => ⟨_, _, rfl, exec_c3Row_of_sC3h hw _ _ _⟩) fun b => .header _ _ _ hw (by omega)

theorem blockAnswer_sC3p (hw : Working .sC3p s) : BlockAnswer s (blockStep s) := by
  cases hp : s.dp.padf with
  | true =>
    by_cases hend : s.dp.len.toNat ≤ s.dp.pos.toNat
    · rw [blockStep_of_fsmWork_raise hw (fsmWork_pad_none hw hp hend)]
      exact .next (.raise _ (working_of_port_none hw.2.1 hw.2.2) (by simp [hw.1]) (by simp [hw.1]))
    · have haw : awaitedField s = some (.pad, s.dp.pos.toNat, s.dp.len.toNat) := by simp [awaitedField, hw.1, hp]
      exact blockAnswer_of_byte hw (fsmWork_of_awaits_byte haw (by decide) (by omega)) (by omega)
        (fun b => ⟨_, _, rfl, exec_padOfByte hw hp b⟩) fun b => .pad b _ hw hp (by omega)
  | false =>
    have hc := c3Is_current s
    rw [hp] at hc
    rw [blockStep_of_fsmWork_run hw (fsmWork_of_sC3p hw.1 hp), State.c3Current, hp, exec_c3Row_of_sC3p hw hc]
    exact .next (.region hw hp)

theorem blockAnswer_sC3f (hw : Working .sC3f s) : BlockAnswer s (blockStep s) := by
  cases hexp : s.expectsLen with
  | true =>
    have haw : awaitedField s = some (.len, s.dp.pos.toNat, s.dp.regionEnd.toNat) := by
      simp [awaitedField, hw.1, hexp]
    have hwork := fsmWork_of_awaits_len haw
    cases hl : s.params.layout with
    | interleaved =>
      exact blockAnswer_of_lenField hw (by simp [hw.1]) (by simp [hw.1]) hwork (.inr le_rfl)
        (fun hval => exec_lenRow_of_interleaved hval hexp hw hl)
        fun hwf hval hend => .interleaved _ _ _ hw hexp hl hwf hval hend
    | grouped =>
      exact blockAnswer_of_lenField hw (by simp [hw.1]) (by simp [hw.1]) hwork (.inr le_rfl)
        (fun hval => exec_lenRow_of_grouped hval hexp hw hl)
        fun hwf hval hend => .grouped _ _ _ hw hexp hl hwf hval hend
  | false =>
    rw [blockStep_of_fsmWork_run hw (fsmWork_of_sC3f hw.1 hexp), State.c3Current,
      exec_c3Row_of_sC3f hw (c3Is_current s) hexp]
    exact .next (.frame hw hexp)

end States

theorem blockStep_of_idle {s : State} (hw : Working .idle s) : blockStep s = .next s := by
  rw [blockStep, nextWork_of_working hw, fsmWork, hw.1]

theorem blockStep_of_port {s : State} {d : Desc} (hrst : s.rst = false) (hport : s.port = some d) :
    blockStep s = .next (acceptDesc d s) := by
  simp [blockStep, nextWork, hrst, hport]

/-- No block step is refused, and each has one of the FSM's effects (R220, R224). -/
theorem blockAnswer (s : State) : BlockAnswer s (blockStep s) := by
  cases hrst : s.rst with
  | true =>
    rw [blockStep_of_rst hrst]
    exact .next (.rest (.inl hrst))
  | false =>
    cases hport : s.port with
    | some d =>
      rw [blockStep_of_port hrst hport]
      exact .next (.accept d hrst hport)
    | none =>
      have hw {f : Fsm} (hf : s.fsm = f) : Working f s := ⟨hf, hport, hrst⟩
      cases hf : s.fsm with
      | idle =>
        rw [blockStep_of_idle (hw hf)]
        exact .next (.rest (.inr hf))
      | sToc => exact blockAnswer_sToc (hw hf)
      | sC0 =>
        rw [blockStep_of_fsmWork_run (hw hf) (fsmWork_of_sC0 hf), exec_tocCode0_of_sC0 (hw hf)]
        exact .next (.code0 (hw hf))
      | sC1 =>
        rw [blockStep_of_fsmWork_run (hw hf) (fsmWork_of_sC1 hf), exec_tocCode1_of_sC1 (hw hf)]
        exact .next (.code1 (hw hf))
      | sC2 => exact blockAnswer_sC2 (hw hf)
      | sC3h => exact blockAnswer_sC3h (hw hf)
      | sC3p => exact blockAnswer_sC3p (hw hf)
      | sC3f => exact blockAnswer_sC3f (hw hf)
      | sFin =>
        rw [blockStep, nextWork_of_working (hw hf), fsmWork_of_sFin hf]
        exact .next (.finish (hw hf))

theorem blockEffect_of_next {s t : State} (h : blockStep s = .next t) : BlockEffect s t := by
  have hans := blockAnswer s
  rw [h] at hans
  cases hans with
  | next heff => exact heff

/-! ### What a block step leaves unchanged -/

/-- A block step as its frame sees it: no change, the acceptance, `finish`, or what a packet row may do, the TOC byte
being kept. -/
inductive BlockFrame (s : State) : State → Prop
  | same : BlockFrame s s
  | accept (d : Desc) (hrst : s.rst = false) (hport : s.port = some d) : BlockFrame s (acceptDesc d s)
  | finish (hw : Working .sFin s) : BlockFrame s (Machine.finish s)
  | row {t : State} (hbusy : s.fsm ≠ .idle) (b : Byte) (h : RowFrame { s with toc := b } t) : BlockFrame s t

theorem BlockEffect.frame_cases {s t : State} (h : BlockEffect s t) : BlockFrame s t := by
  have hrow {f : Fsm} (hw : Working f s) (hf : f ≠ .idle) (hframe : RowFrame s t) : BlockFrame s t :=
    .row (hw.1 ▸ hf) s.toc hframe
  cases h with
  | rest => exact .same
  | accept d hrst hport => exact .accept d hrst hport
  | finish hw => exact .finish hw
  | raise e hw hbusy => exact hrow hw hbusy (rowFrame_raise e s)
  | config b hw => exact .row (by simp [hw.1]) b (RowFrame.refl _)
  | stereo hw | code _ hw | region hw | grouped _ _ _ hw => exact hrow hw (by decide) (RowFrame.refl s)
  | code0 hw => exact hrow hw (by decide) (rowFrame_code0Work s)
  | code1 hw => exact hrow hw (by decide) (rowFrame_code1Work s)
  | len2 _ v n hw => exact hrow hw (by decide) (rowFrame_lenCode2 v n s)
  | code2 hw => exact hrow hw (by decide) (rowFrame_code2Work s)
  | header v p m hw => exact hrow hw (by decide) (rowFrame_readHeader v p m s)
  | pad b last hw => exact hrow hw (by decide) (rowFrame_padByte b last s)
  | interleaved _ v n hw => exact hrow hw (by decide) (rowFrame_lenInterleaved v n s)
  | frame hw => exact hrow hw (by decide) (c3Frame_outcome s).rowFrame

/-- Settles O55: the block's answer at the state with the shorter delay, with the region inside the packet. -/
theorem blockNeverRefused : Obligations.BlockNeverRefused := by
  intro s hinv hturn
  obtain ⟨-, -, -, -, -, -, hregion, -⟩ := hinv
  have hans := blockAnswer s.countDown
  rw [step_of_blockTurn hturn]
  generalize blockStep s.countDown = o at hans
  cases hans with
  | next => exact .inl ⟨_, rfl⟩
  | fault j hj =>
    rw [countDown_frame] at hj
    exact .inr ⟨j, hj.elim id fun h => h.trans_le hregion, rfl⟩

end Sys2Proof.Machine

/-! What one step can do: the block's effect or the host's, with what each host action and command leaves
(43_validity_fsm.md R222 to R232, 20_memory.md R69). -/

namespace Sys2Proof.Machine

/-- What a host command may do once it answers a next state: the START of a parse apart, one field each. -/
inductive CommandEffect (s : State) : Instr → State → Prop
  /-- In reset, and a STATUS write with bit 1 = 0. -/
  | retire (i : Instr) : CommandEffect s i s.retire
  /-- SET_CTRL, and START while a parse runs. -/
  | ctrl (i : Instr) (d : Word) : CommandEffect s i (writeCtrl d s.retire)
  | begin (d : Word) (hidle : s.fsm = .idle) (hlen : s.regs.pktLen.toNat ≤ s.params.pktMax) :
      CommandEffect s (.start d) (beginParse (writeCtrl d s.retire))
  | ack (d : Word) : CommandEffect s (.ackDone d)
      { s.retire with regs := { s.regs with status := { s.regs.status with done := false } } }
  | setLen (d : Word) : CommandEffect s (.setLen d)
      { s.retire with regs := { s.regs with pktLen := d.extractLsb' 0 16 } }
  | writePkt (j : BitVec 16) (v : PktData) (hidle : s.fsm = .idle) : CommandEffect s (.writePkt j v)
      { s.retire with pktBuf := Memory.writePkt s.params.pktMax s.pktBuf j.toNat v }

theorem exec_start_next {s t : State} {d : Word} (hrst : s.rst = false) (h : exec (.start d) s = .next t) :
    CommandEffect s (.start d) t := by
  rw [exec_start_of_not_rst hrst] at h
  obtain ⟨-, hw⟩ | ⟨-, -, hw⟩ | ⟨hidle, hlen, hw⟩ := startWork_cases (writeCtrl d s.retire) <;> rw [hw] at h <;> cases h
  · exact .ctrl _ d
  · exact .begin d hidle hlen

/-- Everything a host command can do. -/
theorem exec_command_next {i : Instr} {s t : State} (hi : isPacketRow i = false) (h : exec i s = .next t) :
    CommandEffect s i t := by
  cases hrst : s.rst with
  | true =>
    rw [exec_of_rst hrst hi] at h
    cases h
    exact .retire i
  | false =>
    cases i
    case setCtrl d =>
      rw [exec_setCtrl_of_not_rst hrst] at h
      cases h
      exact .ctrl _ d
    case start d => exact exec_start_next hrst h
    case ackDone d =>
      rw [exec_ackDone_of_not_rst hrst] at h
      cases h
      split
      · exact .ack d
      · exact .retire _
    case setLen d =>
      rw [exec_setLen_of_not_rst hrst] at h
      cases h
      exact .setLen d
    case writePkt j v =>
      by_cases hidle : s.fsm = .idle
      · rw [exec_writePkt_of_idle hrst hidle] at h
        cases h
        exact .writePkt j v hidle
      · rw [exec_writePkt_of_not_idle hrst hidle] at h
        cases h
    all_goals cases hi

/-- What the host's action may do once it answers a next state. -/
inductive HostEffect (s : State) : HostAction → State → Prop
  | command {addr width : Nat} {d : Word} {i : Instr} {t : State} (hbase : s.params.base ≤ addr)
      (hdec : decodeBus s.params.pktMax (addr - s.params.base) width d = .ok i) (h : CommandEffect s i t) :
      HostEffect s (.write addr width d) t
  /-- A write without effect, a wait that is over, a level that stays. -/
  | retire (a : HostAction) : HostEffect s a s.retire
  | read (a : HostAction) (w : Word) (k : Nat) : HostEffect s a (returnRead w k s)
  | clearSink (hidle : s.fsm = .idle) : HostEffect s .clearSink { s.retire with sink := [] }
  | ready (b : Bool) : HostEffect s (.setReady b) { s.retire with sinkReady := b }
  | reset (b : Bool) : HostEffect s (.setRst b) { applyReset s.retire with rst := b }

/-! ### The host's actions that are no command -/

theorem rejectAccess_done {e : DecodeError} {s t : State} (h : rejectAccess e s = .done t) : t = s.retire := by
  cases e <;> cases h <;> rfl

theorem rejectAccess_ne_command (e : DecodeError) (s : State) (i : Instr) : rejectAccess e s ≠ .command i := by
  cases e <;> exact HostWork.noConfusion

/-- A read is one draw or exact, or is rejected for its width. -/
theorem readOffset_cases (offset width : Nat) (s : State) :
    (∃ w k, readOffset offset width s = .done (returnRead w k s))
      ∨ ∃ e, readOffset offset width s = rejectAccess e s := by
  simp only [readOffset]
  split_ifs
  · exact .inl ⟨_, _, rfl⟩
  · obtain ⟨-, h⟩ | ⟨-, h⟩ := readRegister_cases offset s <;> rw [h] <;> exact .inl ⟨_, _, rfl⟩
  · exact .inr ⟨_, rfl⟩
  · exact .inl ⟨_, _, rfl⟩
  · exact .inl ⟨_, _, rfl⟩
  · exact .inr ⟨_, rfl⟩

theorem hostRead_done {addr width : Nat} {s t : State} (h : hostRead addr width s = .done t) :
    t = s.retire ∨ ∃ w k, t = returnRead w k s := by
  unfold hostRead at h
  split at h
  · cases h
  · obtain ⟨w, k, hr⟩ | ⟨e, hr⟩ := readOffset_cases (addr - s.params.base) width s <;> rw [hr] at h
    · cases h
      exact .inr ⟨w, k, rfl⟩
    · exact .inl (rejectAccess_done h)

theorem hostRead_ne_command (addr width : Nat) (s : State) (i : Instr) : hostRead addr width s ≠ .command i := by
  unfold hostRead
  split
  · exact HostWork.noConfusion
  · obtain ⟨w, k, hr⟩ | ⟨e, hr⟩ := readOffset_cases (addr - s.params.base) width s <;> rw [hr]
    · exact HostWork.noConfusion
    · exact rejectAccess_ne_command e s i

theorem hostWrite_done {addr width : Nat} {d : Word} {s t : State} (h : hostWrite addr width d s = .done t) :
    t = s.retire := by
  unfold hostWrite at h
  split at h
  · cases h
  · split at h
    · cases h
    · split at h
      · cases h
        rfl
      · exact rejectAccess_done h

theorem hostWrite_command {addr width : Nat} {d : Word} {s : State} {i : Instr}
    (h : hostWrite addr width d s = .command i) :
    s.params.base ≤ addr ∧ decodeBus s.params.pktMax (addr - s.params.base) width d = .ok i := by
  unfold hostWrite at h
  split at h
  · cases h
  · rename_i hin
    have hbase : s.params.base ≤ addr := by
      simp only [State.outside, Bool.or_eq_true, decide_eq_true_eq, not_or, not_lt] at hin
      exact hin.1
    split at h
    · cases h
      exact ⟨hbase, ‹_›⟩
    · split at h
      · cases h
      · exact absurd h (rejectAccess_ne_command _ s i)

theorem hostWork_command {a : HostAction} {s : State} {i : Instr} (h : hostWork a s = .command i) :
    ∃ addr width d, a = .write addr width d ∧ s.params.base ≤ addr
      ∧ decodeBus s.params.pktMax (addr - s.params.base) width d = .ok i := by
  cases a with
  | write addr width d => exact ⟨addr, width, d, rfl, hostWrite_command h⟩
  | read addr width => exact absurd h (hostRead_ne_command addr width s i)
  | clearSink =>
    simp only [hostWork, Machine.clearSink] at h
    split at h <;> cases h
  | setReady | setRst | waitDone | waitIrq => cases h

theorem hostWork_done {a : HostAction} {s t : State} (h : hostWork a s = .done t) : HostEffect s a t := by
  cases a with
  | write addr width d =>
    rw [hostWrite_done h]
    exact .retire _
  | read addr width =>
    obtain rfl | ⟨w, k, rfl⟩ := hostRead_done h
    · exact .retire _
    · exact .read _ w k
  | clearSink =>
    simp only [hostWork, Machine.clearSink] at h
    split at h
    · cases h
      exact .clearSink ‹_›
    · cases h
  | setReady b =>
    cases h
    exact .ready b
  | setRst b =>
    cases h
    unfold setRst
    split
    · exact .retire _
    · exact .reset b
  | waitDone =>
    cases h
    exact .read _ _ _
  | waitIrq =>
    cases h
    exact .retire _

/-- Everything a host action can do. -/
theorem hostStep_next {a : HostAction} {s t : State} (h : hostStep a s = .next t) : HostEffect s a t := by
  cases hw : hostWork a s with
  | command i =>
    rw [hostStep, hw] at h
    obtain ⟨addr, width, d, rfl, hbase, hdec⟩ := hostWork_command hw
    exact .command hbase hdec (exec_command_next (isPacketRow_of_decodeBus hdec) h)
  | done t' =>
    rw [hostStep, hw] at h
    cases h
    exact hostWork_done hw
  | fault | refused =>
    rw [hostStep, hw] at h
    cases h

/-- Everything a step can do: a block step, with the host's delay one shorter, or the host's action. -/
theorem step_next {s t : State} (h : step s = .next t) :
    BlockEffect s.countDown t ∨ ∃ e rest, s.host = e :: rest ∧ hostTurn e s = true ∧ HostEffect s e.act t := by
  obtain ⟨hh, hstep⟩ | ⟨e, rest, hh, hturn, hstep⟩ | ⟨e, rest, -, -, hstep⟩ := step_cases s <;> rw [hstep] at h
  · have hsame : s.countDown = s := by rw [State.countDown, hh]
    rw [hsame]
    exact .inl (blockEffect_of_next h)
  · exact .inr ⟨e, rest, hh, hturn, hostStep_next h⟩
  · exact .inl (blockEffect_of_next h)

end Sys2Proof.Machine

/-! What the steps leave unchanged: SINK, the packet buffer, the parameters, and a running parse under the host's
commands (10_state.md R35, R36, 20_memory.md R67, R68). -/

namespace Sys2Proof.Machine

theorem busy_eq_true_iff (s : State) : s.busy = true ↔ s.fsm ≠ .idle := by simp [State.busy]

theorem not_busy_of_idle {s : State} (h : s.fsm = .idle) : ¬ s.busy = true := by simp [State.busy, h]

/-- Settles O47: each of the commands' effects keeps the host's side, and the two that touch more happen in IDLE. -/
theorem hostCommandFrame : Obligations.HostCommandFrame := by
  intro i s t hi h
  cases exec_command_next hi h with
  | retire | ctrl | ack | setLen =>
    exact ⟨⟨rfl, rfl, rfl, rfl, rfl, rfl, rfl⟩,
      fun _ => ⟨rfl, rfl, rfl, rfl, rfl, rfl, rfl, rfl, rfl, rfl, rfl, rfl, rfl⟩⟩
  | begin d hidle => exact ⟨⟨rfl, rfl, rfl, rfl, rfl, rfl, rfl⟩, fun hbusy => absurd hbusy (not_busy_of_idle hidle)⟩
  | writePkt j v hidle =>
    exact ⟨⟨rfl, rfl, rfl, rfl, rfl, rfl, rfl⟩, fun hbusy => absurd hbusy (not_busy_of_idle hidle)⟩

/-! ### SINK -/

theorem BlockFrame.sink {s t : State} (h : BlockFrame s t) :
    t.sink = s.sink ∨ ∃ d, s.port = some d ∧ s.sinkReady = true ∧ t.sink = s.sink ++ [d] := by
  cases h with
  | same | finish => exact .inl rfl
  | accept d hrst hport =>
    cases hready : s.sinkReady with
    | true => exact .inr ⟨d, hport, rfl, by rw [acceptDesc_ready hready]⟩
    | false => exact .inl (by rw [acceptDesc_stalled hready])
  | row _ b h =>
    obtain ⟨-, -, hsink, -⟩ := h
    exact .inl hsink

theorem CommandEffect.sink {s t : State} {i : Instr} (h : CommandEffect s i t) : t.sink = s.sink := by
  cases h <;> rfl

/-- Settles O48: only the acceptance appends, only CLEAR_SINK removes. -/
theorem sinkOnlyAppended : Obligations.SinkOnlyAppended := by
  intro s t h
  obtain hblock | ⟨⟨delay, a⟩, rest, hh, -, heff⟩ := step_next h
  · rw [countDown_frame] at hblock
    obtain hsame | hacc := hblock.frame_cases.sink
    · exact .inl hsame
    · exact .inr (.inl hacc)
  · cases heff with
    | command _ _ hc => exact .inl hc.sink
    | retire | read | ready | reset => exact .inl rfl
    | clearSink hidle => exact .inr (.inr ⟨delay, rest, hh, hidle, rfl⟩)

/-! ### The packet buffer -/

theorem acceptDesc_pktBuf (d : Desc) (s : State) : (acceptDesc d s).pktBuf = s.pktBuf := by
  unfold acceptDesc
  split <;> rfl

theorem acceptDesc_params (d : Desc) (s : State) : (acceptDesc d s).params = s.params := by
  unfold acceptDesc
  split <;> rfl

/-- The block writes no packet cell, and no parameter. -/
theorem BlockFrame.memory {s t : State} (h : BlockFrame s t) : t.pktBuf = s.pktBuf ∧ t.params = s.params := by
  cases h with
  | same | finish => exact ⟨rfl, rfl⟩
  | accept d => exact ⟨acceptDesc_pktBuf d s, acceptDesc_params d s⟩
  | row _ b h =>
    obtain ⟨hmem, hparams, -⟩ := h
    exact ⟨hmem, hparams⟩

theorem BlockEffect.countDown_memory {s t : State} (h : BlockEffect s.countDown t) :
    t.pktBuf = s.pktBuf ∧ t.params = s.params := by
  rw [countDown_frame] at h
  exact h.frame_cases.memory

/-- A command changes the packet buffer only as WRITE_PKT in IDLE. -/
theorem CommandEffect.pktBuf {s t : State} {i : Instr} (h : CommandEffect s i t) :
    t.pktBuf = s.pktBuf ∨ (s.fsm = .idle ∧ ∃ j v, i = .writePkt j v ∧
      t.pktBuf = Memory.writePkt s.params.pktMax s.pktBuf j.toNat v) := by
  cases h with
  | retire | ctrl | begin | ack | setLen => exact .inl rfl
  | writePkt j v hidle => exact .inr ⟨hidle, j, v, rfl, rfl⟩

/-- Only a window write decodes to WRITE_PKT (R65, R74). -/
theorem window_of_decodeBus_writePkt {pktMax offset width : Nat} {d : Word} {j : BitVec 16} {v : PktData}
    (h : decodeBus pktMax offset width d = .ok (.writePkt j v)) : Config.pktWinOff ≤ offset := by
  by_contra hlt
  rw [decodeBus, if_pos (Nat.not_le.mp hlt)] at h
  split at h
  · unfold decodeRegisterWrite at h
    split at h
    · split at h <;> cases h
    · split at h <;> cases h
    · cases h
    · cases h
  · cases h

/-- Settles O49: of all the effects of a step, WRITE_PKT in IDLE and a change of `rst` alone write the buffer. -/
theorem blockNeverWritesPacket : Obligations.BlockNeverWritesPacket := by
  intro s t h hne
  obtain hblock | ⟨⟨delay, a⟩, rest, hh, -, heff⟩ := step_next h
  · exact absurd hblock.countDown_memory.1 hne
  · cases heff with
    | command hbase hdec hc =>
      obtain hsame | ⟨hidle, j, v, rfl, -⟩ := hc.pktBuf
      · exact absurd hsame hne
      · have hwin : 0x10000 ≤ _ := window_of_decodeBus_writePkt hdec
        exact .inl ⟨delay, _, _, _, rest, hh, hidle, by omega⟩
    | retire | read | clearSink | ready => exact absurd rfl hne
    | reset b => exact .inr ⟨delay, b, rest, hh⟩

/-! ### The packet buffer's form -/

theorem CommandEffect.params {s t : State} {i : Instr} (h : CommandEffect s i t) : t.params = s.params := by
  cases h <;> rfl

theorem HostEffect.params {a : HostAction} {s t : State} (h : HostEffect s a t) : t.params = s.params := by
  cases h with
  | command _ _ hc => exact hc.params
  | retire | read | clearSink | ready | reset => rfl

theorem memoryInv_of_eq {s t : State} (h : MemoryInv s) (hmem : t.pktBuf = s.pktBuf) (hparams : t.params = s.params) :
    MemoryInv t := by
  rwa [MemoryInv, hmem, hparams]

theorem HostEffect.memoryInv {a : HostAction} {s t : State} (h : HostEffect s a t) (hinv : MemoryInv s) :
    MemoryInv t := by
  cases h with
  | command _ _ hc =>
    obtain hsame | ⟨-, j, v, rfl, hmem⟩ := hc.pktBuf
    · exact memoryInv_of_eq hinv hsame hc.params
    · rw [MemoryInv, hmem, hc.params]
      exact ⟨Memory.wf_writePkt _ _ v hinv.1, Memory.inside_writePkt _ v hinv.2⟩
  | retire | read | clearSink | ready => exact hinv
  | reset => exact ⟨rfl, rfl⟩

/-- Settles O52: the block leaves the buffer alone, and each host effect keeps its form. -/
theorem stepKeepsMemory : Obligations.StepKeepsMemory := by
  intro s t hinv h
  obtain hblock | ⟨e, rest, -, -, heff⟩ := step_next h
  · obtain ⟨hmem, hparams⟩ := hblock.countDown_memory
    exact ⟨memoryInv_of_eq hinv hmem hparams, hparams⟩
  · exact ⟨heff.memoryInv hinv, heff.params⟩

/-! ### STATUS -/

theorem ParseError.code_le (e : ParseError) : e.code.toNat ≤ 8 := by
  cases e <;> decide

/-- In IDLE the flags of any outcome fit together (R229, R250). -/
theorem statusInv_finish (s : State) : StatusInv (finish s) := by
  refine ⟨fun hbusy => absurd hbusy (not_busy_of_idle rfl), ?_⟩
  cases ho : s.outcome with
  | none => rw [finish_regs, ho]; exact ⟨fun _ => rfl, Nat.zero_le 8⟩
  | some e => rw [finish_regs, ho]; exact ⟨fun h => absurd h (by simp [Status.ofOutcome]), e.code_le⟩

theorem acceptDesc_status (d : Desc) (s : State) :
    (acceptDesc d s).regs.status = s.regs.status ∧ (acceptDesc d s).fsm = s.fsm := by
  unfold acceptDesc
  split <;> exact ⟨rfl, rfl⟩

theorem statusInv_of_eq {s t : State} (h : StatusInv s) (hstatus : t.regs.status = s.regs.status)
    (hbusy : t.busy = true → s.busy = true) : StatusInv t := by
  obtain ⟨hdone, herr⟩ := h
  rw [StatusInv, hstatus]
  exact ⟨fun hb => hdone (hbusy hb), herr⟩

theorem BlockFrame.statusInv {s t : State} (h : BlockFrame s t) (hinv : StatusInv s) : StatusInv t := by
  cases h with
  | same => exact hinv
  | accept d =>
    obtain ⟨hstatus, hfsm⟩ := acceptDesc_status d s
    exact statusInv_of_eq hinv hstatus fun hb => by rwa [State.busy, hfsm] at hb
  | finish => exact statusInv_finish s
  | row hbusy b h =>
    obtain ⟨-, -, -, -, -, -, hstatus, -⟩ := h
    exact statusInv_of_eq hinv hstatus fun _ => (busy_eq_true_iff s).mpr hbusy

theorem CommandEffect.statusInv {s t : State} {i : Instr} (h : CommandEffect s i t) (hinv : StatusInv s) :
    StatusInv t := by
  obtain ⟨hdone, herr⟩ := hinv
  cases h with
  | retire | ctrl | setLen | writePkt => exact ⟨hdone, herr⟩
  | begin => exact ⟨fun _ => rfl, fun _ => rfl, Nat.zero_le 8⟩
  | ack => exact ⟨fun _ => rfl, herr⟩

theorem HostEffect.statusInv {a : HostAction} {s t : State} (h : HostEffect s a t) (hinv : StatusInv s) :
    StatusInv t := by
  cases h with
  | command _ _ hc => exact hc.statusInv hinv
  | retire | read | clearSink | ready => exact hinv
  | reset => exact ⟨fun _ => rfl, fun _ => rfl, Nat.zero_le 8⟩

/-- Settles O53: STATUS changes only with `finish`, START, ACK_DONE and a reset. -/
theorem stepKeepsStatus : Obligations.StepKeepsStatus := by
  intro s t hinv h
  obtain hblock | ⟨e, rest, -, -, heff⟩ := step_next h
  · rw [countDown_frame] at hblock
    exact hblock.frame_cases.statusInv hinv
  · exact heff.statusInv hinv

end Sys2Proof.Machine

/-! The invariant OpfInv: every step keeps it (20_memory.md R66, 10_state.md R22, R30). -/

namespace Sys2Proof.Machine

/-! ### The frame counter and the port -/

/-- A step that presents nothing and counts nothing keeps it, with nothing on the port. -/
theorem PortInv.keep {f : Fsm} {s t : State} (h : PortInv s) (hw : Working f s) (hport : t.port = s.port)
    (hnum : t.regs.numFrames = s.regs.numFrames) (hnf : t.dp.nf = s.dp.nf) (hidx : t.dp.fidx = s.dp.fidx) :
    PortInv t := by
  obtain ⟨hcount, hpres, -⟩ := h
  rw [PortInv, hnum, hnf, hidx, hport]
  exact ⟨hcount, hpres, fun hsome => by simp [hw.2.1] at hsome⟩

theorem toNat_fidx_succ {x : BitVec 6} (h : x.toNat < 63) : (x + 1).toNat = x.toNat + 1 := by
  rw [BitVec.toNat_add]
  exact Nat.mod_eq_of_lt (Nat.succ_lt_succ h)

/-- A frame presented is the next one: the frame index counts it while the port holds it (R161). -/
theorem PortInv.emit {f : Fsm} {s : State} (h : PortInv s) (hw : Working f s)
    (hf : f = .sC0 ∨ f = .sC1 ∨ f = .sC2 ∨ f = .sC3f) (hidx : s.dp.fidx.toNat < 63)
    (off n pos' : Nat) : PortInv (emit off n pos' s) := by
  obtain ⟨-, -, he⟩ | ⟨-, he⟩ := emit_cases off n pos' s <;> rw [he]
  · exact h.keep hw rfl rfl rfl rfl
  · obtain ⟨hcount, hpres, -⟩ := h
    refine ⟨hcount, ?_, fun _ => hw.1.symm ▸ hf⟩
    rw [hw.2.1] at hpres
    change s.dp.nf.toNat + 1 = (s.dp.fidx + 1).toNat
    rw [toNat_fidx_succ hidx, ← hpres]
    rfl

theorem PortInv.acceptDesc {s : State} (h : PortInv s) {d : Desc} (hport : s.port = some d) :
    PortInv (acceptDesc d s) := by
  cases hready : s.sinkReady with
  | false =>
    rw [acceptDesc_stalled hready]
    exact h
  | true =>
    rw [acceptDesc_ready hready]
    obtain ⟨-, hpres, -⟩ := h
    rw [hport] at hpres
    have hidx := s.dp.fidx.isLt
    refine ⟨rfl, ?_, fun hsome => by cases hsome⟩
    change (s.dp.nf + 1).toNat + 0 = s.dp.fidx.toNat
    simp only [Option.isSome_some, if_true] at hpres
    rw [BitVec.toNat_add, ← hpres]
    exact Nat.mod_eq_of_lt (show s.dp.nf.toNat + 1 < 65536 by omega)

/-- Every frame presented by the frames of Code 3 is one of the M. -/
theorem NextFrame.fidx_lt {s : State} {n pos' : Nat} (h : NextFrame s n pos') (hreg : FrameRegionInv s) :
    s.dp.fidx.toNat < s.dp.m.toNat := by
  obtain ⟨-, -, -, hle, -⟩ := hreg
  cases h with
  | cbr _ hidx => exact lt_of_le_of_ne hle fun h => hidx (BitVec.eq_of_toNat_eq h)
  | grouped _ _ hidx => omega
  | last _ hidx => omega

theorem expectsLen_of_sC3f {s : State} (h : s.fsm = .sC3f) : s.expectsLen = true ↔
    s.dp.vbr = true ∧ match s.params.layout with
      | .interleaved => s.dp.fidx.toNat + 1 < s.dp.m.toNat
      | .grouped => s.dp.lens.length + 1 < s.dp.m.toNat := by
  simp only [State.expectsLen, h, Bool.and_eq_true]
  cases s.params.layout <;> simp

/-- The frame index cannot leave its register in the step that presents a frame. -/
theorem BlockEffect.portInv {s t : State} (h : BlockEffect s t) (hinv : PortInv s) (hdp : DatapathInv s) :
    PortInv t := by
  obtain ⟨-, -, -, -, -, -, -, hstage⟩ := hdp
  cases h with
  | rest => exact hinv
  | accept d _ hport => exact hinv.acceptDesc hport
  | finish hw | raise _ hw | config _ hw | stereo hw | code _ hw | region hw | grouped _ _ _ hw =>
    exact hinv.keep hw rfl rfl rfl rfl
  | code0 hw =>
    obtain ⟨hidx, he⟩ | ⟨-, he⟩ := code0Work_cases s <;> rw [he]
    · exact hinv.emit hw (.inl rfl) (by simp [hidx]) ..
    · exact hinv.keep hw rfl rfl rfl rfl
  | code1 hw =>
    obtain ⟨-, -, he⟩ | ⟨hidx, -, he⟩ | ⟨hidx, he⟩ | ⟨-, -, he⟩ := code1Work_cases s <;> rw [he]
    · exact hinv.keep hw rfl rfl rfl rfl
    · exact hinv.emit hw (.inr (.inl rfl)) (by simp [hidx]) ..
    · exact hinv.emit hw (.inr (.inl rfl)) (by simp [hidx]) ..
    · exact hinv.keep hw rfl rfl rfl rfl
  | len2 _ v n hw hidx =>
    have hpos : PortInv (withPos (1 + n) s) := hinv
    obtain ⟨-, he⟩ | ⟨-, he⟩ := lenCode2_cases v n s <;> rw [he]
    · exact hinv.keep hw rfl rfl rfl rfl
    · exact hpos.emit hw (.inr (.inr (.inl rfl))) (by simp [withPos, hidx]) ..
  | code2 hw =>
    obtain ⟨hidx, he⟩ | ⟨-, he⟩ := code2Work_cases s <;> rw [he]
    · exact hinv.emit hw (.inr (.inr (.inl rfl))) (by simp [hidx]) ..
    · exact hinv.keep hw rfl rfl rfl rfl
  | header v p m hw =>
    obtain he | he | he := readHeader_cases v p m s <;> rw [he] <;>
      exact hinv.keep hw rfl rfl rfl rfl
  | pad b last hw =>
    obtain he | ⟨-, he⟩ | ⟨-, he⟩ := padByte_cases b last s <;> rw [he] <;>
      exact hinv.keep hw rfl rfl rfl rfl
  | interleaved _ v n hw hexp hl =>
    have hpos : PortInv (withPos (s.dp.pos.toNat + n) s) := hinv
    obtain ⟨-, hidx⟩ := (expectsLen_of_sC3f hw.1).mp hexp
    rw [hl] at hidx
    have hm := s.dp.m.isLt
    obtain ⟨-, he⟩ | ⟨-, he⟩ := lenInterleaved_cases v n s <;> rw [he]
    · exact hinv.keep hw rfl rfl rfl rfl
    · exact hpos.emit hw (.inr (.inr (.inr rfl))) (by change s.dp.fidx.toNat < 63; simp only at hidx; omega) ..
  | frame hw =>
    simp only [StageInv, hw.1] at hstage
    have hm := s.dp.m.isLt
    have hout := c3Frame_outcome s
    generalize c3Frame s = t at hout
    cases hout with
    | complete | raise => exact hinv.keep hw rfl rfl rfl rfl
    | emit n pos' _ hnext =>
      have hidx := hnext.fidx_lt hstage
      exact hinv.emit hw (.inr (.inr (.inr rfl))) (by omega) ..

/-! ### The datapath's bounds -/

/-- `DatapathInv` without the facts of the FSM state. -/
def DatapathBounds (s : State) : Prop :=
  s.params.ok = true
    ∧ s.dp.len.toNat ≤ s.params.pktMax
    ∧ s.dp.pos.toNat ≤ s.dp.len.toNat
    ∧ s.dp.regionEnd.toNat ≤ s.dp.len.toNat
    ∧ s.dp.lsum.toNat = (s.dp.lens.map BitVec.toNat).sum
    ∧ s.dp.lens.length ≤ 62
    ∧ ∀ n ∈ s.dp.lens, n.toNat ≤ 1275

theorem datapathInv_iff (s : State) : DatapathInv s ↔ DatapathBounds s ∧ StageInv s := by
  simp only [DatapathInv, DatapathBounds, and_assoc]

/-- The cursor may move anywhere inside the packet. -/
theorem DatapathBounds.move {s t : State} (h : DatapathBounds s) (hparams : t.params = s.params)
    (hlen : t.dp.len = s.dp.len) (hpos : t.dp.pos.toNat ≤ s.dp.len.toNat) (hregion : t.dp.regionEnd = s.dp.regionEnd)
    (hlsum : t.dp.lsum = s.dp.lsum) (hlens : t.dp.lens = s.dp.lens) : DatapathBounds t := by
  obtain ⟨hok, hmax, -, hend, hlists⟩ := h
  rw [DatapathBounds, hparams, hlen, hregion, hlsum, hlens]
  exact ⟨hok, hmax, hpos, hend, hlists⟩

theorem toNat_word16_le {n : Nat} {len : BitVec 16} (h : n ≤ len.toNat) : (word16 n).toNat = n :=
  toNat_word16 (h.trans_lt len.isLt)

theorem DatapathBounds.withPos {s : State} {p : Nat} (h : DatapathBounds s) (hp : p ≤ s.dp.len.toNat) :
    DatapathBounds (withPos p s) :=
  h.move rfl rfl (by rwa [Machine.withPos, toNat_word16_le hp]) rfl rfl rfl

/-- The state that waits with the next frame up, the cursor at `pos'`, as `emit` leaves it but for the port. -/
def nextUp (pos' : Nat) (s : State) : State :=
  { s with dp := { s.dp with pos := word16 pos', fidx := s.dp.fidx + 1 } }

theorem DatapathBounds.emit {s : State} {pos' : Nat} (h : DatapathBounds s) (hpos : pos' ≤ s.dp.len.toNat)
    (off n : Nat) : DatapathBounds (emit off n pos' s) := by
  obtain ⟨-, -, he⟩ | ⟨-, he⟩ := emit_cases off n pos' s <;> rw [he]
  · exact h
  · exact h.move rfl rfl (by rwa [toNat_word16_le hpos]) rfl rfl rfl

theorem stageInv_emit {s : State} {pos' : Nat} (h : StageInv (nextUp pos' s)) (off n : Nat) :
    StageInv (emit off n pos' s) := by
  obtain ⟨-, -, he⟩ | ⟨-, he⟩ := emit_cases off n pos' s <;> rw [he]
  · exact trivial
  · exact h

/-- An Emit keeps the invariant where the cursor stays inside the packet and the FSM state's own facts hold of the
next frame. -/
theorem DatapathBounds.inv_emit {s : State} {pos' : Nat} (h : DatapathBounds s) (hpos : pos' ≤ s.dp.len.toNat)
    (hstage : StageInv (nextUp pos' s)) (off n : Nat) : DatapathInv (Machine.emit off n pos' s) :=
  (datapathInv_iff _).mpr ⟨h.emit hpos off n, stageInv_emit hstage off n⟩

/-- In S_FIN nothing is asked of the cursor but its bound. -/
theorem DatapathBounds.inv_raise {s : State} (h : DatapathBounds s) (e : ParseError) : DatapathInv (raise e s) :=
  (datapathInv_iff _).mpr ⟨h, trivial⟩

theorem DatapathBounds.inv_complete {s : State} (h : DatapathBounds s) : DatapathInv (complete s) :=
  (datapathInv_iff _).mpr ⟨h, trivial⟩

/-! ### The TOC byte and CODE0 to CODE2 -/

theorem datapathInv_acceptDesc {s : State} (d : Desc) (h : DatapathInv s) : DatapathInv (acceptDesc d s) := by
  cases hready : s.sinkReady with
  | false =>
    rw [acceptDesc_stalled hready]
    exact h
  | true =>
    rw [acceptDesc_ready hready]
    exact h

/-- Where the packet is not empty, every Code's state may be entered. -/
theorem datapathInv_dispatchCode {s : State} (c : BitVec 2) (h : DatapathBounds s)
    (hlists : s.dp.fidx = 0 ∧ s.dp.lens = [] ∧ s.dp.lsum = 0) (hlen : s.dp.len ≠ 0) :
    DatapathInv (dispatchCode c (codeState c) s) := by
  have hpos : (1#16).toNat ≤ s.dp.len.toNat := Nat.pos_of_ne_zero fun h0 => hlen (BitVec.eq_of_toNat_eq h0)
  refine (datapathInv_iff _).mpr ⟨h.move rfl rfl hpos rfl rfl rfl, ?_⟩
  obtain rfl | rfl | rfl | rfl := code_cases c
  · exact hlen
  · exact hlen
  · exact hlen
  · exact hlists

section Codes

variable {s : State} (h : DatapathInv s)
include h

theorem datapathInv_code0Work (hf : s.fsm = .sC0) : DatapathInv (code0Work s) := by
  obtain ⟨hb, hstage⟩ := (datapathInv_iff s).mp h
  obtain ⟨-, he⟩ | ⟨-, he⟩ := code0Work_cases s <;> rw [he]
  · exact hb.inv_emit hb.2.2.1 (by simpa [StageInv, nextUp, hf] using hstage) ..
  · exact hb.inv_complete

theorem datapathInv_code1Work (hf : s.fsm = .sC1) : DatapathInv (code1Work s) := by
  obtain ⟨hb, hstage⟩ := (datapathInv_iff s).mp h
  have hnext : StageInv (nextUp s.dp.pos.toNat s) := by simpa [StageInv, nextUp, hf] using hstage
  obtain ⟨-, -, he⟩ | ⟨-, -, he⟩ | ⟨-, he⟩ | ⟨-, -, he⟩ := code1Work_cases s <;> rw [he]
  · exact hb.inv_raise _
  · exact hb.inv_emit hb.2.2.1 hnext ..
  · exact hb.inv_emit hb.2.2.1 hnext ..
  · exact hb.inv_complete

theorem datapathInv_code2Work (hf : s.fsm = .sC2) : DatapathInv (code2Work s) := by
  obtain ⟨hb, hstage⟩ := (datapathInv_iff s).mp h
  obtain ⟨-, he⟩ | ⟨-, he⟩ := code2Work_cases s <;> rw [he]
  · exact hb.inv_emit hb.2.2.1 (by simpa [StageInv, nextUp, hf] using hstage) ..
  · exact hb.inv_complete

theorem datapathInv_lenCode2 {v n : Nat} (hf : s.fsm = .sC2) (hend : 1 + n ≤ s.dp.len.toNat) :
    DatapathInv (lenCode2 v n s) := by
  obtain ⟨hb, hstage⟩ := (datapathInv_iff s).mp h
  have hb' := hb.withPos hend
  obtain ⟨-, he⟩ | ⟨hfits, he⟩ := lenCode2_cases v n s <;> rw [he]
  · exact hb'.inv_raise _
  · exact hb'.inv_emit (show 1 + n + v ≤ s.dp.len.toNat by omega)
      (by simpa [StageInv, nextUp, withPos, hf] using hstage) ..

/-! ### The Code 3 header and the padding chain -/

theorem datapathInv_readHeader (v p : Bool) (m : BitVec 6) (hf : s.fsm = .sC3h) (hlen : 2 ≤ s.dp.len.toNat) :
    DatapathInv (readHeader v p m s) := by
  obtain ⟨hb, hstage⟩ := (datapathInv_iff s).mp h
  have hb' : DatapathBounds (withHeader v p m s) := hb.move rfl rfl hlen rfl rfl rfl
  obtain he | he | he := readHeader_cases v p m s <;> rw [he]
  · exact hb'.inv_raise _
  · exact hb'.inv_raise _
  · simp only [StageInv, hf] at hstage
    obtain ⟨hidx, hlens, hlsum⟩ := hstage
    exact (datapathInv_iff _).mpr ⟨hb', hidx, hlens, hlsum, rfl, hlen⟩

theorem datapathInv_fixRegion (hf : s.fsm = .sC3p) : DatapathInv (fixRegion s) := by
  obtain ⟨⟨hok, hmax, hpos, -, hlists⟩, hstage⟩ := (datapathInv_iff s).mp h
  simp only [StageInv, hf] at hstage
  obtain ⟨hidx, hlens, -, hcur, hsum⟩ := hstage
  have hend : (fixRegion s).dp.regionEnd.toNat = s.dp.len.toNat - s.dp.padData.toNat :=
    toNat_word16_le (Nat.sub_le ..)
  refine (datapathInv_iff _).mpr ⟨⟨hok, hmax, hpos, hend.trans_le (Nat.sub_le ..), hlists⟩, ?_⟩
  refine ⟨?_, hcur.ge, ?_, ?_, fun _ => ⟨?_, fun hne => absurd hidx hne⟩, .inl hlens, fun hne => absurd hidx hne⟩
  · rw [hend]
    change _ + s.dp.padData.toNat = s.dp.len.toNat
    omega
  · rw [hend]
    change s.dp.pos.toNat ≤ _
    omega
  · change s.dp.fidx.toNat ≤ _
    simp [hidx]
  · change s.dp.pos.toNat = 2 + s.dp.padHdr.toNat + s.dp.fidx.toNat * _
    simp [hidx, hcur]

theorem datapathInv_padByte (b : Byte) (last : Bool) (hf : s.fsm = .sC3p) (hleft : s.dp.pos.toNat < s.dp.len.toNat) :
    DatapathInv (padByte b last s) := by
  obtain ⟨hpos, hhdr, hdata⟩ := countPadByte_counters h hf hleft b
  obtain ⟨hb, hstage⟩ := (datapathInv_iff s).mp h
  simp only [StageInv, hf] at hstage
  obtain ⟨hidx, hlens, hlsum, hcur, hsum⟩ := hstage
  have hb' : DatapathBounds (countPadByte b s) := hb.move rfl rfl (by omega) rfl rfl rfl
  by_cases hover : s.dp.len.toNat - 2 < chainTotal (countPadByte b s)
  · rw [padByte_of_overflow hover]
    exact hb'.inv_raise _
  · have hfits : chainTotal (countPadByte b s) ≤ s.dp.len.toNat - 2 := Nat.not_lt.mp hover
    have hinv : DatapathInv (countPadByte b s) := by
      refine (datapathInv_iff _).mpr ⟨hb', ?_⟩
      simp only [StageInv, countPadByte_fsm, hf]
      rw [chainTotal] at hfits
      refine ⟨hidx, hlens, hlsum, by omega, ?_⟩
      change _ ≤ s.dp.len.toNat
      omega
    rw [padByte_of_fits hfits]
    split
    · exact datapathInv_fixRegion (s := paddingResult (countPadByte b s)) hinv hf
    · exact hinv

end Codes

end Sys2Proof.Machine

/-! The invariant over the frames of Code 3, and over every step (42_code_splitter.md R167 to R171, 20_memory.md
R66). -/

namespace Sys2Proof.Machine

/-! ### The frames of Code 3 -/

section Frames

variable {s : State} (hreg : FrameRegionInv s)
include hreg

/-- In the grouped layout, where no length is due, all of them are read. -/
theorem lens_full_of_grouped (hf : s.fsm = .sC3f) (hexp : s.expectsLen = false) (hv : s.dp.vbr = true)
    (hl : s.params.layout = .grouped) (hm : s.dp.m ≠ 0) : s.dp.lens.length + 1 = s.dp.m.toNat := by
  obtain ⟨-, -, -, -, -, hlens, -⟩ := hreg
  have hnot : ¬ s.dp.lens.length + 1 < s.dp.m.toNat := fun hlt => by
    have := (expectsLen_of_sC3f hf).mpr ⟨hv, by simpa [hl] using hlt⟩
    simp [hexp] at this
  have hpos : 0 < s.dp.m.toNat := Nat.pos_of_ne_zero fun h0 => hm (BitVec.eq_of_toNat_eq h0)
  obtain hnil | hle := hlens
  · simp only [hnil, List.length_nil] at hnot ⊢
    omega
  · omega

/-- While lengths of the grouped layout are due, no frame is presented yet. -/
theorem fidx_zero_of_reads_lens (hf : s.fsm = .sC3f) (hexp : s.expectsLen = true) (hl : s.params.layout = .grouped) :
    s.dp.fidx = 0 := by
  obtain ⟨-, -, -, -, -, -, hgrouped⟩ := hreg
  obtain ⟨hv, hlt⟩ := (expectsLen_of_sC3f hf).mp hexp
  simp only [hl] at hlt
  by_contra hne
  obtain ⟨hfull, -⟩ := hgrouped hne hv hl
  omega

/-- What the explicit lengths not yet used add up to fits the region. -/
theorem lens_fit (hlsum : s.dp.lsum.toNat = (s.dp.lens.map BitVec.toNat).sum)
    (hv : s.dp.vbr = true) (hl : s.params.layout = .grouped)
    (hsum : s.dp.fidx = 0 → s.dp.pos.toNat + s.dp.lsum.toNat ≤ s.dp.regionEnd.toNat) :
    s.dp.pos.toNat + ((s.dp.lens.drop s.dp.fidx.toNat).map BitVec.toNat).sum ≤ s.dp.regionEnd.toNat := by
  by_cases h0 : s.dp.fidx = 0
  · have hfits := hsum h0
    rw [hlsum] at hfits
    rw [h0]
    exact hfits
  · obtain ⟨-, -, -, -, -, -, hgrouped⟩ := hreg
    exact (hgrouped h0 hv hl).2

/-- The cursor after an equal frame: `i + 1` frames of `f` bytes past the chain (R169). -/
theorem cbr_cursor (hv : s.dp.vbr = false) (hidx : s.dp.fidx.toNat < s.dp.m.toNat) :
    s.dp.pos.toNat + cbrRemainder s / s.dp.m.toNat
        = 2 + s.dp.padHdr.toNat + (s.dp.fidx.toNat + 1) * (cbrRemainder s / s.dp.m.toNat)
      ∧ s.dp.pos.toNat + cbrRemainder s / s.dp.m.toNat ≤ s.dp.regionEnd.toNat := by
  obtain ⟨-, hlow, hhigh, -, hcbr, -⟩ := hreg
  obtain ⟨hpos, -⟩ := hcbr hv
  have hnext : s.dp.pos.toNat + cbrRemainder s / s.dp.m.toNat
      = 2 + s.dp.padHdr.toNat + (s.dp.fidx.toNat + 1) * (cbrRemainder s / s.dp.m.toNat) := by
    rw [hpos]
    ring
  refine ⟨hnext, hnext.trans_le ?_⟩
  calc 2 + s.dp.padHdr.toNat + (s.dp.fidx.toNat + 1) * (cbrRemainder s / s.dp.m.toNat)
      ≤ 2 + s.dp.padHdr.toNat + s.dp.m.toNat * (cbrRemainder s / s.dp.m.toNat) :=
        Nat.add_le_add_left (Nat.mul_le_mul_right _ hidx) _
    _ ≤ 2 + s.dp.padHdr.toNat + cbrRemainder s := Nat.add_le_add_left (Nat.mul_div_le ..) _
    _ = s.dp.regionEnd.toNat := Nat.add_sub_cancel' (hlow.trans hhigh)

/-- The region's facts for the next frame, in terms of the frame before it. -/
theorem FrameRegionInv.nextUp {pos' : Nat} (hlow : s.dp.pos.toNat ≤ pos') (hle : pos' ≤ s.dp.regionEnd.toNat)
    (hidx : s.dp.fidx.toNat < s.dp.m.toNat)
    (hcbr : s.dp.vbr = false →
      pos' = 2 + s.dp.padHdr.toNat + (s.dp.fidx.toNat + 1) * (cbrRemainder s / s.dp.m.toNat)
        ∧ cbrRemainder s % s.dp.m.toNat = 0)
    (hgrouped : s.dp.vbr = true → s.params.layout = .grouped → s.dp.lens.length + 1 = s.dp.m.toNat
      ∧ pos' + ((s.dp.lens.drop (s.dp.fidx.toNat + 1)).map BitVec.toNat).sum ≤ s.dp.regionEnd.toNat) :
    FrameRegionInv (nextUp pos' s) := by
  obtain ⟨hsplit, hchain, -, -, -, hlens, -⟩ := hreg
  have hm63 := s.dp.m.isLt
  have hsucc : (Machine.nextUp pos' s).dp.fidx.toNat = s.dp.fidx.toNat + 1 := toNat_fidx_succ (by omega)
  have hpos16 : (Machine.nextUp pos' s).dp.pos.toNat = pos' := toNat_word16_le hle
  rw [FrameRegionInv, hpos16, hsucc]
  exact ⟨hsplit, hchain.trans hlow, hle, hidx, fun hv => ⟨(hcbr hv).1, fun _ => (hcbr hv).2⟩, hlens,
    fun _ hv hl => hgrouped hv hl⟩

/-- The next frame ends inside the region, and the region's facts hold of the frame after it. -/
theorem NextFrame.region {n pos' : Nat} (h : NextFrame s n pos') (hm : s.dp.m ≠ 0) (hf : s.fsm = .sC3f)
    (hexp : s.expectsLen = false) (hlsum : s.dp.lsum.toNat = (s.dp.lens.map BitVec.toNat).sum) :
    pos' ≤ s.dp.regionEnd.toNat ∧ FrameRegionInv (nextUp pos' s) := by
  have hidx := h.fidx_lt hreg
  obtain ⟨-, -, hhigh, -⟩ := id hreg
  cases h with
  | cbr hv hidxm hdvd hn hpos =>
    obtain ⟨hcur, hle⟩ := cbr_cursor hreg hv hidx
    rw [← hn, ← hpos] at hcur hle
    rw [hn] at hcur
    exact ⟨hle, hreg.nextUp (by omega) hle hidx (fun _ => ⟨hcur, hdvd⟩) fun hv' => by simp [hv] at hv'⟩
  | grouped hv hl hidxm hsum hn hpos =>
    have hfull := lens_full_of_grouped hreg hf hexp hv hl hm
    have hlt : s.dp.fidx.toNat < s.dp.lens.length := by omega
    have hfits := lens_fit hreg hlsum hv hl hsum
    rw [List.drop_eq_getElem_cons hlt, List.map_cons, List.sum_cons] at hfits
    rw [List.getD_eq_getElem _ _ hlt] at hn
    have hle : pos' ≤ s.dp.regionEnd.toNat := by omega
    exact ⟨hle, hreg.nextUp (by omega) hle hidx (fun hv' => by simp [hv] at hv') fun _ _ => ⟨hfull, by omega⟩⟩
  | last hv hidxm hsum hn hpos =>
    have hle : pos' ≤ s.dp.regionEnd.toNat := hpos.trans_le hhigh
    refine ⟨hle, hreg.nextUp hpos.ge hle hidx (fun hv' => by simp [hv] at hv') fun _ hl => ?_⟩
    have hfull := lens_full_of_grouped hreg hf hexp hv hl hm
    rw [List.drop_of_length_le (by omega)]
    exact ⟨hfull, hle⟩

/-- A length of the grouped layout is read before any frame (R171). -/
theorem frameRegionInv_lenGrouped {v n : Nat} (hidx : s.dp.fidx = 0) (hv : s.dp.vbr = true)
    (hdue : s.dp.lens.length + 1 < s.dp.m.toNat) (hend : s.dp.pos.toNat + n ≤ s.dp.regionEnd.toNat) :
    FrameRegionInv (lenGrouped v n s) := by
  obtain ⟨hsplit, hchain, -, -, -, -, -⟩ := hreg
  have hpos16 : (lenGrouped v n s).dp.pos.toNat = s.dp.pos.toNat + n := toNat_word16_le hend
  rw [FrameRegionInv, hpos16]
  refine ⟨hsplit, hchain.trans (Nat.le_add_right ..), hend, ?_, fun hv' => ?_, .inr ?_, fun hne => absurd hidx hne⟩
  · change s.dp.fidx.toNat ≤ _
    simp [hidx]
  · rw [lenGrouped_dp, hv] at hv'
    cases hv'
  · rw [lenGrouped_dp, List.length_append]
    exact hdue

end Frames

section FrameSteps

variable {s : State} (h : DatapathInv s)
include h

theorem DatapathInv.frameRegion (hf : s.fsm = .sC3f) : FrameRegionInv s := by
  have hstage := ((datapathInv_iff s).mp h).2
  simpa only [StageInv, hf] using hstage

theorem datapathInv_c3Frame (hf : s.fsm = .sC3f) (hexp : s.expectsLen = false) : DatapathInv (c3Frame s) := by
  have hreg := h.frameRegion hf
  obtain ⟨hb, -⟩ := (datapathInv_iff s).mp h
  have hout := c3Frame_outcome s
  generalize c3Frame s = t at hout
  cases hout with
  | complete => exact hb.inv_complete
  | raise e => exact hb.inv_raise e
  | emit n pos' hm hnext =>
    obtain ⟨-, -, -, hregion, hlsum, -⟩ := id hb
    obtain ⟨hle, hreg'⟩ := hnext.region hreg hm hf hexp hlsum
    exact hb.inv_emit (hle.trans hregion) (by simpa only [StageInv, nextUp, hf] using hreg') ..

theorem datapathInv_lenInterleaved {v n : Nat} (hf : s.fsm = .sC3f) (hexp : s.expectsLen = true)
    (hl : s.params.layout = .interleaved) (hend : s.dp.pos.toNat + n ≤ s.dp.regionEnd.toNat) :
    DatapathInv (lenInterleaved v n s) := by
  have hreg := h.frameRegion hf
  obtain ⟨hb, -⟩ := (datapathInv_iff s).mp h
  obtain ⟨-, -, -, hregion, -⟩ := id hb
  obtain ⟨hv, hidx⟩ := (expectsLen_of_sC3f hf).mp hexp
  simp only [hl] at hidx
  have hb' := hb.withPos (hend.trans hregion)
  obtain ⟨-, he⟩ | ⟨hfits, he⟩ := lenInterleaved_cases v n s <;> rw [he]
  · exact hb'.inv_raise _
  · have hreg' : FrameRegionInv (nextUp (s.dp.pos.toNat + n + v) s) :=
      hreg.nextUp (by omega) hfits (by omega) (fun hv' => by simp [hv] at hv') fun _ hl' => by simp [hl] at hl'
    refine hb'.inv_emit (hfits.trans hregion) ?_ ..
    simpa only [StageInv, nextUp, withPos, hf] using hreg'

theorem datapathInv_lenGrouped {v n : Nat} (hv : v ≤ 1275) (hf : s.fsm = .sC3f) (hexp : s.expectsLen = true)
    (hl : s.params.layout = .grouped) (hend : s.dp.pos.toNat + n ≤ s.dp.regionEnd.toNat) :
    DatapathInv (lenGrouped v n s) := by
  have hreg := h.frameRegion hf
  obtain ⟨⟨hok, hmax, -, hregion, hlsum, hcount, hle⟩, -⟩ := (datapathInv_iff s).mp h
  obtain ⟨hvbr, hdue⟩ := (expectsLen_of_sC3f hf).mp hexp
  simp only [hl] at hdue
  have hm63 := s.dp.m.isLt
  have hval : (BitVec.ofNat 11 v).toNat = v := toNat_ofNat_of_lt (by omega)
  have hbound : (s.dp.lens.map BitVec.toNat).sum ≤ s.dp.lens.length * 1275 := by
    simpa using List.sum_le_card_nsmul (s.dp.lens.map BitVec.toNat) 1275 (by simpa using hle)
  have hpos16 : (lenGrouped v n s).dp.pos.toNat = s.dp.pos.toNat + n := toNat_word16_le hend
  have hsum18 : (lenGrouped v n s).dp.lsum.toNat = s.dp.lsum.toNat + v := toNat_ofNat_of_lt (by omega)
  refine (datapathInv_iff _).mpr ⟨⟨hok, hmax, hpos16.trans_le (hend.trans hregion), hregion, ?_, ?_, ?_⟩, ?_⟩
  · rw [hsum18, lenGrouped_dp, List.map_append, List.sum_append, hlsum]
    simp [hval]
  · rw [lenGrouped_dp, List.length_append, List.length_singleton]
    omega
  · intro x hx
    rw [lenGrouped_dp, List.mem_append, List.mem_singleton] at hx
    obtain hx | rfl := hx
    · exact hle x hx
    · exact hval.trans_le hv
  · have hreg' := frameRegionInv_lenGrouped (v := v) hreg (fidx_zero_of_reads_lens hreg hf hexp hl) hvbr hdue hend
    simpa only [StageInv, lenGrouped_fsm, hf] using hreg'

/-! ### Every step -/

theorem BlockEffect.datapathInv {t : State} (heff : BlockEffect s t) : DatapathInv t := by
  obtain ⟨hb, hstage⟩ := (datapathInv_iff s).mp h
  cases heff with
  | rest => exact h
  | accept d => exact datapathInv_acceptDesc d h
  | finish => exact (datapathInv_iff _).mpr ⟨hb, trivial⟩
  | raise e => exact hb.inv_raise e
  | config b hw hph hlen =>
    simp only [StageInv, hw.1] at hstage
    obtain ⟨hidx, hlens, hlsum, -⟩ := hstage
    refine (datapathInv_iff _).mpr ⟨hb, ?_⟩
    simp only [StageInv, afterConfig, hw.1]
    exact ⟨hidx, hlens, hlsum, .inr hlen⟩
  | stereo hw hph =>
    simp only [StageInv, hw.1, hph, reduceCtorEq, false_or] at hstage
    obtain ⟨hidx, hlens, hlsum, hlen⟩ := hstage
    refine (datapathInv_iff _).mpr ⟨hb, ?_⟩
    simp only [StageInv, afterStereo, hw.1]
    exact ⟨hidx, hlens, hlsum, .inr hlen⟩
  | code c hw hph =>
    simp only [StageInv, hw.1, hph, reduceCtorEq, false_or] at hstage
    obtain ⟨hidx, hlens, hlsum, hlen⟩ := hstage
    exact datapathInv_dispatchCode c hb ⟨hidx, hlens, hlsum⟩ hlen
  | code0 hw => exact datapathInv_code0Work h hw.1
  | code1 hw => exact datapathInv_code1Work h hw.1
  | len2 _ _ _ hw _ _ _ hend => exact datapathInv_lenCode2 h hw.1 hend
  | code2 hw => exact datapathInv_code2Work h hw.1
  | header v p m hw hlen => exact datapathInv_readHeader h v p m hw.1 hlen
  | pad b last hw _ hleft => exact datapathInv_padByte h b last hw.1 hleft
  | region hw => exact datapathInv_fixRegion h hw.1
  | interleaved _ _ _ hw hexp hl _ _ hend => exact datapathInv_lenInterleaved h hw.1 hexp hl hend
  | grouped _ _ _ hw hexp hl hwf hval hend =>
    exact datapathInv_lenGrouped h (lenRowValue_le hwf hval) hw.1 hexp hl hend
  | frame hw hexp => exact datapathInv_c3Frame h hw.1 hexp

end FrameSteps

/-- Where the datapath and the port are as START or a reset leaves them, only the length's bound is asked. -/
theorem inv_of_fresh {t : State} (hok : t.params.ok = true) (hlen : t.dp.len.toNat ≤ t.params.pktMax)
    (hdp : t.dp = { Datapath.zero with len := t.dp.len, strict := t.dp.strict }) (hport : t.port = none)
    (hnum : t.regs.numFrames = 0) (hf : t.fsm = .idle ∨ (t.fsm = .sToc ∧ t.tocPhase = .config)) :
    PortInv t ∧ DatapathInv t := by
  have hzero : t.dp.nf = 0 ∧ t.dp.fidx = 0 ∧ t.dp.pos = 0 ∧ t.dp.regionEnd = 0 ∧ t.dp.lens = [] ∧ t.dp.lsum = 0 := by
    rw [hdp]
    exact ⟨rfl, rfl, rfl, rfl, rfl, rfl⟩
  obtain ⟨hnf, hidx, hpos, hregion, hlens, hlsum⟩ := hzero
  refine ⟨⟨hnum.trans hnf.symm, by simp [hnf, hidx, hport], by simp [hport]⟩, (datapathInv_iff t).mpr ⟨?_, ?_⟩⟩
  · exact ⟨hok, hlen, by simp [hpos], by simp [hregion], by simp [hlsum, hlens], by simp [hlens], by simp [hlens]⟩
  · obtain hf | ⟨hf, hph⟩ := hf
    · simp [StageInv, hf]
    · simpa only [StageInv, hf] using ⟨hidx, hlens, hlsum, Or.inl hph⟩

section Host

variable {s t : State} (hport : PortInv s) (hdp : DatapathInv s)
include hport hdp

theorem CommandEffect.inv {i : Instr} (h : CommandEffect s i t) : PortInv t ∧ DatapathInv t := by
  obtain ⟨hok, -⟩ := id hdp
  cases h with
  | retire | ctrl | ack | setLen | writePkt => exact ⟨hport, hdp⟩
  | begin d hidle hlen => exact inv_of_fresh hok hlen rfl rfl rfl (.inr ⟨rfl, rfl⟩)

theorem HostEffect.inv {a : HostAction} (h : HostEffect s a t) : PortInv t ∧ DatapathInv t := by
  obtain ⟨hok, -⟩ := id hdp
  cases h with
  | command _ _ hc => exact hc.inv hport hdp
  | retire | read | clearSink | ready => exact ⟨hport, hdp⟩
  | reset => exact inv_of_fresh hok (Nat.zero_le _) rfl rfl rfl (.inl rfl)

end Host

/-- Settles O54: memory and STATUS by their own step lemmas, the port and the datapath by each effect of a step. -/
theorem stepKeepsInvariant : Obligations.StepKeepsInvariant := by
  intro s t hinv h
  obtain ⟨hmem, hstatus, hport, hdp⟩ := hinv
  refine ⟨(stepKeepsMemory s t hmem h).1, stepKeepsStatus s t hstatus h, ?_⟩
  obtain hblock | ⟨e, rest, -, -, heff⟩ := step_next h
  · rw [countDown_frame] at hblock
    exact ⟨hblock.portInv hport hdp, BlockEffect.datapathInv (s := { s with host := s.countDown.host }) hdp hblock⟩
  · exact heff.inv hport hdp

/-- Settles O51: right after reset nothing is latched, presented or counted. -/
theorem resetMeetsInvariant : Obligations.ResetMeetsInvariant :=
  ⟨⟨rfl, rfl⟩, ⟨fun _ => rfl, fun _ => rfl, Nat.zero_le 8⟩, inv_of_fresh rfl (Nat.zero_le _) rfl rfl rfl (.inl rfl)⟩

end Sys2Proof.Machine

/-! The block reads no packet cell at or past LEN (20_memory.md R67): with another packet buffer that agrees below LEN
it does the same work, and the rows it runs do not look at the buffer. -/

namespace Sys2Proof.Machine

/-- The state with another packet buffer. -/
def withMem (mem : Memory) (s : State) : State := { s with pktBuf := mem }

/-- The same outcome with another packet buffer. -/
def outcomeWithMem (mem : Memory) : Host.Outcome State Fault Refusal → Host.Outcome State Fault Refusal
  | .next t => .next (withMem mem t)
  | .fault f => .fault f
  | .refused r => .refused r

/-! ### The rows do not look at the buffer -/

section Works

variable (mem : Memory) (s : State)

theorem emit_withMem (off n pos' : Nat) : emit off n pos' (withMem mem s) = withMem mem (emit off n pos' s) := by
  simp only [emit, apply_ite (withMem mem)]
  rfl

theorem code0Work_withMem : code0Work (withMem mem s) = withMem mem (code0Work s) := by
  simp only [code0Work, apply_ite (withMem mem), ← emit_withMem]
  rfl

theorem code1Work_withMem : code1Work (withMem mem s) = withMem mem (code1Work s) := by
  simp only [code1Work, apply_ite (withMem mem), ← emit_withMem]
  rfl

theorem code2Work_withMem : code2Work (withMem mem s) = withMem mem (code2Work s) := by
  simp only [code2Work, apply_ite (withMem mem), ← emit_withMem]
  rfl

theorem readHeader_withMem (v p : Bool) (m : BitVec 6) :
    readHeader v p m (withMem mem s) = withMem mem (readHeader v p m s) := by
  simp only [readHeader, apply_ite (withMem mem)]
  rfl

theorem cbrFrame_withMem : cbrFrame (withMem mem s) = withMem mem (cbrFrame s) := by
  simp only [cbrFrame, apply_ite (withMem mem), ← emit_withMem]
  rfl

theorem lastFrame_withMem : lastFrame (withMem mem s) = withMem mem (lastFrame s) := by
  simp only [lastFrame, apply_ite (withMem mem), ← emit_withMem]
  rfl

theorem groupedFrame_withMem : groupedFrame (withMem mem s) = withMem mem (groupedFrame s) := by
  simp only [groupedFrame, apply_ite (withMem mem), ← emit_withMem, ← lastFrame_withMem]
  rfl

theorem c3Frame_withMem : c3Frame (withMem mem s) = withMem mem (c3Frame s) := by
  have hparams : (withMem mem s).params = s.params := rfl
  unfold c3Frame
  rw [apply_ite (withMem mem), apply_ite (withMem mem), hparams]
  refine ite_congr rfl (fun _ => rfl) fun _ => ite_congr rfl (fun _ => cbrFrame_withMem mem s) fun _ => ?_
  cases s.params.layout with
  | interleaved => exact lastFrame_withMem mem s
  | grouped => exact groupedFrame_withMem mem s

theorem lenCode2_withMem (v n : Nat) : lenCode2 v n (withMem mem s) = withMem mem (lenCode2 v n s) := by
  simp only [lenCode2, apply_ite (withMem mem), ← emit_withMem]
  rfl

theorem lenInterleaved_withMem (v n : Nat) :
    lenInterleaved v n (withMem mem s) = withMem mem (lenInterleaved v n s) := by
  simp only [lenInterleaved, apply_ite (withMem mem), ← emit_withMem]
  rfl

theorem padByte_withMem (b : Byte) (last : Bool) : padByte b last (withMem mem s) = withMem mem (padByte b last s) := by
  simp only [padByte, apply_ite (withMem mem)]
  rfl

/-- A next state of the buffer `mem`, as an outcome. -/
theorem next_withMem (t : State) : Host.Outcome.next (withMem mem t) = outcomeWithMem mem (.next t) := rfl

theorem exec_tocCodeRow_withMem (c : BitVec 2) :
    exec (tocCodeRow c) (withMem mem s) = outcomeWithMem mem (exec (tocCodeRow c) s) := by
  obtain rfl | rfl | rfl | rfl := code_cases c
  · change execTocCode0 _ = outcomeWithMem mem (execTocCode0 s)
    simp only [execTocCode0, code0Work_withMem, next_withMem, apply_ite (outcomeWithMem mem)]
    rfl
  · change execTocCode1 _ = outcomeWithMem mem (execTocCode1 s)
    simp only [execTocCode1, code1Work_withMem, next_withMem, apply_ite (outcomeWithMem mem)]
    rfl
  · change execTocCode2 _ = outcomeWithMem mem (execTocCode2 s)
    simp only [execTocCode2, code2Work_withMem, next_withMem, apply_ite (outcomeWithMem mem)]
    rfl
  · change execTocCode3 _ = outcomeWithMem mem (execTocCode3 s)
    simp only [execTocCode3, apply_ite (outcomeWithMem mem)]
    rfl

theorem c3Form_withMem (v p : Bool) (m : BitVec 6) :
    c3Form v p m (withMem mem s) = outcomeWithMem mem (c3Form v p m s) := by
  simp only [c3Form, readHeader_withMem, c3Frame_withMem, next_withMem, apply_ite (outcomeWithMem mem)]
  rfl

theorem lenForm_withMem (row : Instr) (v n : Nat) :
    lenForm row v n (withMem mem s) = outcomeWithMem mem (lenForm row v n s) := by
  have hparams : (withMem mem s).params = s.params := rfl
  unfold lenForm
  rw [apply_ite (outcomeWithMem mem), apply_ite (outcomeWithMem mem), hparams]
  refine ite_congr rfl (fun _ => ite_congr rfl (fun _ => ?_) fun _ => ?_) fun _ => rfl
  · exact congrArg Host.Outcome.next (lenCode2_withMem mem s v n)
  · cases s.params.layout with
    | interleaved => exact congrArg Host.Outcome.next (lenInterleaved_withMem mem s v n)
    | grouped => rfl

theorem padForm_withMem (row : Instr) (b : Byte) (last : Bool) :
    padForm row b last (withMem mem s) = outcomeWithMem mem (padForm row b last s) := by
  simp only [padForm, padByte_withMem, next_withMem, apply_ite (outcomeWithMem mem)]
  rfl

/-- A packet row reads its operands, and no packet cell. -/
theorem exec_packetRow_withMem {i : Instr} (hi : isPacketRow i = true) :
    exec i (withMem mem s) = outcomeWithMem mem (exec i s) := by
  obtain ⟨k, rfl⟩ | ⟨b, rfl⟩ | ⟨c, rfl⟩ | ⟨v, p, m, rfl⟩ | ⟨v, n, hlen⟩ | rfl | ⟨t, rfl⟩ := packetRow_cases hi
  · simp only [exec_tocConfigRow, writeConfig, apply_ite (outcomeWithMem mem)]
    rfl
  · simp only [exec_tocStereoRow, writeStereo, apply_ite (outcomeWithMem mem)]
    rfl
  · exact exec_tocCodeRow_withMem mem s c
  · simp only [exec_c3Row, c3Form_withMem]
  · simp only [exec_lenRow hlen, lenForm_withMem]
  · exact padForm_withMem mem s ..
  · exact padForm_withMem mem s ..

end Works

/-! ### The fetch reads below LEN -/

/-- The block's work on two states that differ in the packet buffer: the same, by a packet row if a row runs. -/
inductive SameWork (mem : Memory) : BlockWork → BlockWork → Prop
  | rest : SameWork mem .rest .rest
  | accept (d : Desc) : SameWork mem (.accept d) (.accept d)
  | finish : SameWork mem .finish .finish
  | raise (e : ParseError) : SameWork mem (.raise e) (.raise e)
  | fault (f : Fault) : SameWork mem (.fault f) (.fault f)
  | run (i : Instr) (s : State) (hi : isPacketRow i = true) : SameWork mem (.run i s) (.run i (withMem mem s))

theorem isPacketRow_tocConfigRow (k : BitVec 5) : isPacketRow (tocConfigRow k) = true := by
  revert k
  decide

theorem isPacketRow_tocCodeRow (c : BitVec 2) : isPacketRow (tocCodeRow c) = true := by
  revert c
  decide

theorem isPacketRow_c3Row (v p : Bool) (m : BitVec 6) : isPacketRow (c3Row v p m) = true := by
  cases v <;> cases p <;> rfl

/-- Every packet field decodes to a row of the packet. -/
theorem isPacketRow_of_decodeField {f : Format} {bytes rest : List Byte} {i : Instr}
    (h : decodeField f bytes = .ok (i, rest)) : isPacketRow i = true := by
  cases bytes with
  | nil => cases f <;> cases h
  | cons b bytes' =>
    cases f with
    | tocConfig =>
      cases h
      exact isPacketRow_tocConfigRow _
    | tocStereo =>
      cases h
      cases flagBit b 2 <;> rfl
    | tocCode =>
      cases h
      exact isPacketRow_tocCodeRow _
    | c3h =>
      cases h
      exact isPacketRow_c3Row ..
    | pad =>
      cases h
      unfold padOfByte
      split <;> rfl
    | len =>
      simp only [decodeField] at h
      split at h
      · cases h
        rfl
      · split at h <;> cases h
        rfl

section Fetch

variable {mem : Memory} {s : State}

theorem runField_sameWork (f : Format) (bytes : List Byte) (s : State) :
    SameWork mem (runField f bytes s) (runField f bytes (withMem mem s)) := by
  unfold runField
  split
  · exact .run _ _ (isPacketRow_of_decodeField ‹_›)
  · exact .raise _

theorem memRead_sameWork {i : Nat} {k k' : Byte → BlockWork} (hread : Memory.read mem i = Memory.read s.pktBuf i)
    (hk : ∀ b, SameWork mem (k b) (k' b)) : SameWork mem (memRead s i k) (memRead (withMem mem s) i k') := by
  cases h : Memory.read s.pktBuf i with
  | none =>
    rw [memRead_of_unwritten h, memRead_of_unwritten (hread.trans h)]
    exact .fault _
  | some b =>
    rw [memRead_of_read h, memRead_of_read (hread.trans h)]
    exact hk b

theorem lenField_sameWork {p stop : Nat} (hmem : ∀ i, i < stop → Memory.read mem i = Memory.read s.pktBuf i) :
    SameWork mem (lenField p stop s) (lenField p stop (withMem mem s)) := by
  unfold lenField
  split
  · exact .raise _
  · refine memRead_sameWork (hmem p (by omega)) fun b0 => ?_
    split
    · exact runField_sameWork ..
    · split
      · exact .raise _
      · exact memRead_sameWork (hmem (p + 1) (by omega)) fun b1 => runField_sameWork ..

variable (hmem : ∀ i, i < s.dp.len.toNat → Memory.read mem i = Memory.read s.pktBuf i)
include hmem

theorem tocWork_sameWork : SameWork mem (tocWork s) (tocWork (withMem mem s)) := by
  have hph : (withMem mem s).tocPhase = s.tocPhase := rfl
  have hdp : (withMem mem s).dp = s.dp := rfl
  unfold tocWork
  rw [hph, hdp]
  cases s.tocPhase with
  | config =>
    dsimp only
    split
    · exact .raise _
    · rename_i hlen
      have hpos : 0 < s.dp.len.toNat := Nat.pos_of_ne_zero fun h => hlen (BitVec.eq_of_toNat_eq h)
      exact memRead_sameWork (hmem 0 hpos) fun b => runField_sameWork _ _ { s with toc := b, tocPhase := .config }
  | stereo => exact runField_sameWork ..
  | code => exact runField_sameWork ..

theorem fsmWork_sameWork (hregion : s.dp.regionEnd.toNat ≤ s.dp.len.toNat) :
    SameWork mem (fsmWork s) (fsmWork (withMem mem s)) := by
  have hfsm : (withMem mem s).fsm = s.fsm := rfl
  have hdp : (withMem mem s).dp = s.dp := rfl
  have hexp : (withMem mem s).expectsLen = s.expectsLen := rfl
  unfold fsmWork
  rw [hfsm, hdp, hexp]
  cases s.fsm with
  | idle => exact .rest
  | sToc => exact tocWork_sameWork hmem
  | sC0 => exact .run _ s rfl
  | sC1 => exact .run _ s rfl
  | sC2 =>
    dsimp only
    split
    · exact lenField_sameWork hmem
    · exact .run _ s rfl
  | sC3h =>
    dsimp only
    split
    · exact .raise _
    · exact memRead_sameWork (hmem 1 (by omega)) fun h => runField_sameWork ..
  | sC3p =>
    dsimp only
    split
    · split
      · exact .raise _
      · exact memRead_sameWork (hmem _ (by omega)) fun b => runField_sameWork ..
    · exact .run _ s (isPacketRow_c3Row ..)
  | sC3f =>
    dsimp only
    split
    · exact lenField_sameWork fun i hi => hmem i (hi.trans_le hregion)
    · exact .run _ s (isPacketRow_c3Row ..)
  | sFin => exact .finish

theorem nextWork_sameWork (hregion : s.dp.regionEnd.toNat ≤ s.dp.len.toNat) :
    SameWork mem (nextWork s) (nextWork (withMem mem s)) := by
  have hrst : (withMem mem s).rst = s.rst := rfl
  have hport : (withMem mem s).port = s.port := rfl
  unfold nextWork
  rw [hrst, hport]
  split
  · exact .rest
  · split
    · exact .accept _
    · exact fsmWork_sameWork hmem hregion

end Fetch

theorem acceptDesc_withMem (d : Desc) (mem : Memory) (s : State) :
    acceptDesc d (withMem mem s) = withMem mem (acceptDesc d s) := by
  simp only [acceptDesc, apply_ite (withMem mem)]
  rfl

theorem blockStep_withMem {mem : Memory} {s : State} (hregion : s.dp.regionEnd.toNat ≤ s.dp.len.toNat)
    (hmem : ∀ i, i < s.dp.len.toNat → Memory.read mem i = Memory.read s.pktBuf i) :
    blockStep (withMem mem s) = outcomeWithMem mem (blockStep s) := by
  have hwork := nextWork_sameWork hmem hregion
  unfold blockStep
  generalize nextWork s = w, nextWork (withMem mem s) = w' at hwork
  cases hwork with
  | rest | finish | raise | fault => rfl
  | accept d => exact congrArg Host.Outcome.next (acceptDesc_withMem d mem s)
  | run i s' hi => exact exec_packetRow_withMem mem s' hi

/-- Settles O50: the two steps have the same outcome up to the packet buffer. -/
theorem cellsPastLenAreNotRead : Obligations.CellsPastLenAreNotRead := by
  intro s mem hregion hh hmem
  have hstep : step (withMem mem s) = outcomeWithMem mem (step s) := by
    rw [step_of_host_nil hh, step_of_host_nil (s := withMem mem s) hh, blockStep_withMem hregion hmem]
  refine ⟨fun t h => ?_, fun f h => ?_, fun r h => ?_⟩ <;> exact hstep.trans (congrArg (outcomeWithMem mem) h)

end Sys2Proof.Machine

/-! Emit, and the runs of CODE0 to CODE2 to the end of their work (42_code_splitter.md R161 to R164, 43_validity_fsm.md
R231). -/

namespace Sys2Proof.Machine

/-! ### Emit -/

/-- The state with a descriptor on the port, the cursor moved and the next frame up: `emit` after its check. -/
def presented (off n pos' : Nat) (s : State) : State :=
  { s with
    port := some ⟨word16 off, word16 n⟩
    dp := { s.dp with pos := word16 pos', fidx := s.dp.fidx + 1 } }

section Emit

variable {off n pos' : Nat} {s : State}

theorem emit_of_tooBig (h : s.dp.strict = true ∧ 1275 < n) : emit off n pos' s = raise .frameTooBig s := if_pos h

theorem not_tooBig {strict : Bool} (h : strict = false ∨ n ≤ 1275) : ¬ (strict = true ∧ 1275 < n) := by
  rintro ⟨hs, hn⟩
  obtain hlenient | hle := h
  · simp [hs] at hlenient
  · omega

theorem emit_of_fits (h : s.dp.strict = false ∨ n ≤ 1275) : emit off n pos' s = presented off n pos' s :=
  if_neg (not_tooBig h)

/-- Where the cursor stays, only the port and the frame index change. -/
theorem presented_same_pos (off n : Nat) (s : State) :
    presented off n s.dp.pos.toNat s
      = { s with port := some ⟨word16 off, word16 n⟩, dp := { s.dp with fidx := s.dp.fidx + 1 } } := by
  rw [presented, word16_toNat]

end Emit

theorem step_of_port {s : State} {d : Desc} (hrst : s.rst = false) (hh : s.host = []) (hport : s.port = some d) :
    step s = .next (acceptDesc d s) := by
  rw [step_of_host_nil hh, blockStep_of_port hrst hport]

/-- Settles O16: the check decides between `raise` and `presented`, whose next step is the acceptance. -/
theorem emitChecksThenAppends : Obligations.EmitChecksThenAppends := by
  intro off n pos' s
  refine ⟨fun hbig => ?_, fun hfits => ?_⟩
  · rw [emit_of_tooBig hbig]
    exact ⟨rfl, rfl, rfl⟩
  · refine ⟨presented off n pos' s, emit_of_fits hfits, rfl, rfl, rfl, rfl, rfl, rfl, ?_⟩
    rintro ⟨hready, hrst, hh⟩
    rw [step_of_port (s := presented off n pos' s) hrst hh rfl, acceptDesc_ready (s := presented off n pos' s) hready]
    rfl

theorem safeRun_of_stays {s : State} (h : step s = .next s) (k : Nat) : SafeRun k s s := by
  induction k with
  | zero => exact safeRun_zero s
  | succ k ih => exact safeRun_succ h ih

/-- Settles O17: the step of a stalled Emit leaves the state, so any number of them does. -/
theorem stalledSinkHoldsTheBlock : Obligations.StalledSinkHoldsTheBlock := by
  intro s d k hinv hport hready hrst hh
  refine ⟨safeRun_of_stays ?_ k, (busy_eq_true_iff s).mpr fun hidle => ?_⟩
  · rw [step_of_port hrst hh hport, acceptDesc_stalled hready]
  · obtain ⟨-, -, hemits⟩ := hinv
    have hfsm := hemits (by simp [hport])
    simp [hidle] at hfsm

/-! ### Runs to the end of the work -/

/-- NUM_FRAMES after the descriptors `ds`, from the state `s`. -/
def countAfter (s : State) (ds : List Desc) : BitVec 16 :=
  if ds = [] then s.regs.numFrames else s.dp.nf + BitVec.ofNat 16 ds.length

/-- The undisturbed block runs from `s` to S_FIN with the descriptors and the outcome of `r`, and the registers as they
are but for NUM_FRAMES. -/
def RunsTo (s : State) (r : Emitted) : Prop :=
  ∃ k t, SafeRun k s t ∧ Working .sFin t ∧ Undisturbed t ∧ t.outcome = r.2 ∧ t.sink = s.sink ++ r.1
    ∧ t.regs = { s.regs with numFrames := countAfter s r.1 }

theorem RunsTo.of_sFin {s : State} (hw : Working .sFin s) (hu : Undisturbed s) : RunsTo s ([], s.outcome) :=
  ⟨0, s, safeRun_zero s, hw, hu, rfl, (List.append_nil _).symm, rfl⟩

/-- A step that sends no descriptor and writes no register. -/
theorem RunsTo.step {s s' : State} {r : Emitted} (hstep : Machine.step s = .next s') (hsink : s'.sink = s.sink)
    (hregs : s'.regs = s.regs) (hnf : s'.dp.nf = s.dp.nf) (h : RunsTo s' r) : RunsTo s r := by
  obtain ⟨k, t, hrun, hw, hu, hout, hsink', hregs'⟩ := h
  rw [hsink] at hsink'
  rw [hregs, countAfter, hregs, hnf] at hregs'
  exact ⟨k + 1, t, safeRun_succ hstep hrun, hw, hu, hout, hsink', hregs'⟩

theorem RunsTo.raise {f : Fsm} {s : State} {e : ParseError} (hw : Working f s) (hu : Undisturbed s)
    (hstep : Machine.step s = .next (Machine.raise e s)) : RunsTo s ([], some e) :=
  .step hstep rfl rfl rfl (.of_sFin (s := Machine.raise e s) ⟨rfl, hw.2⟩ hu)

theorem RunsTo.complete {f : Fsm} {s : State} (hw : Working f s) (hu : Undisturbed s)
    (hstep : Machine.step s = .next (Machine.complete s)) : RunsTo s ([], none) :=
  .step hstep rfl rfl rfl (.of_sFin (s := Machine.complete s) ⟨rfl, hw.2⟩ hu)

/-- The state after the frame was presented and accepted. -/
def sent (off n pos' : Nat) (s : State) : State :=
  { s with
    sink := s.sink ++ [⟨word16 off, word16 n⟩]
    dp := { s.dp with pos := word16 pos', fidx := s.dp.fidx + 1, nf := s.dp.nf + 1 }
    regs := { s.regs with numFrames := s.dp.nf + 1 }
    port := none }

theorem countAfter_cons (d : Desc) (ds : List Desc) (off n pos' : Nat) (s : State) :
    countAfter s (d :: ds) = countAfter (sent off n pos' s) ds := by
  by_cases h : ds = []
  · subst h
    rfl
  · have hnf : (sent off n pos' s).dp.nf = s.dp.nf + 1 := rfl
    rw [countAfter, countAfter, if_neg (by simp), if_neg h, hnf, List.length_cons, BitVec.ofNat_add,
      BitVec.add_comm (BitVec.ofNat 16 ds.length), ← BitVec.add_assoc]
    rfl

/-- The acceptance of a presented descriptor, and what follows it. -/
theorem RunsTo.presented {off n pos' : Nat} {s : State} {r : Emitted} (hu : Undisturbed s)
    (h : RunsTo (sent off n pos' s) r) :
    RunsTo (Machine.presented off n pos' s) (⟨word16 off, word16 n⟩ :: r.1, r.2) := by
  obtain ⟨k, t, hrun, hw', hu', hout, hsink, hregs⟩ := h
  obtain ⟨hready, hrst, hh⟩ := hu
  have hstep : Machine.step (Machine.presented off n pos' s) = .next (sent off n pos' s) := by
    rw [step_of_port (s := Machine.presented off n pos' s) hrst hh rfl,
      acceptDesc_ready (s := Machine.presented off n pos' s) hready]
    rfl
  refine ⟨k + 1, t, safeRun_succ hstep hrun, hw', hu', hout, ?_, ?_⟩
  · rw [hsink]
    exact List.append_assoc ..
  · rw [hregs, ← countAfter_cons ⟨word16 off, word16 n⟩ r.1 off n pos' s]
    rfl

theorem emitAll_cons_of_tooBig {strict : Bool} {off n : Nat} (h : strict = true ∧ 1275 < n) (rest : List (Nat × Nat)) :
    emitAll strict ((off, n) :: rest) = ([], some .frameTooBig) := if_pos h

theorem emitAll_cons_of_fits {strict : Bool} {off n : Nat} (h : ¬ (strict = true ∧ 1275 < n))
    (rest : List (Nat × Nat)) : emitAll strict ((off, n) :: rest)
      = (⟨word16 off, word16 n⟩ :: (emitAll strict rest).1, (emitAll strict rest).2) := if_neg h

/-- One Emit of a run of Emits (R161). -/
theorem RunsTo.emitAll_cons {f : Fsm} {off n pos' : Nat} {s : State} {rest : List (Nat × Nat)} (hw : Working f s)
    (hu : Undisturbed s) (hstep : Machine.step s = .next (emit off n pos' s))
    (h : RunsTo (sent off n pos' s) (emitAll s.dp.strict rest)) :
    RunsTo s (emitAll s.dp.strict ((off, n) :: rest)) := by
  obtain ⟨hs, hn, he⟩ | ⟨hfits, he⟩ := emit_cases off n pos' s <;> rw [he] at hstep
  · rw [emitAll_cons_of_tooBig ⟨hs, hn⟩]
    exact .raise hw hu hstep
  · rw [emitAll_cons_of_fits hfits]
    exact .step hstep rfl rfl rfl (.presented hu h)

theorem Working.sent {f : Fsm} {s : State} (hw : Working f s) (off n pos' : Nat) : Working f (sent off n pos' s) :=
  ⟨hw.1, rfl, hw.2.2⟩

/-- A run of Emits whose frames all pass the check sends them all. -/
theorem emitAll_of_fits {strict : Bool} {l : List (Nat × Nat)} (h : ∀ p ∈ l, strict = false ∨ p.2 ≤ 1275) :
    emitAll strict l = (l.map fun p => ⟨word16 p.1, word16 p.2⟩, none) := by
  induction l with
  | nil => rfl
  | cons p rest ih =>
    obtain ⟨off, n⟩ := p
    rw [emitAll_cons_of_fits (not_tooBig (h _ List.mem_cons_self)), ih fun q hq => h q (List.mem_cons_of_mem _ hq)]
    rfl

/-! ### CODE0 -/

section Code0

variable {s : State} (hw : Working .sC0 s)
include hw

theorem step_sC0 (hh : s.host = []) : step s = .next (code0Work s) := by
  rw [step_of_fsmWork_run hw hh (fsmWork_of_sC0 hw.1), exec_tocCode0_of_sC0 hw]

theorem code0_complete (hidx : s.dp.fidx ≠ 0) (hu : Undisturbed s) : RunsTo s ([], none) :=
  .complete hw hu ((step_sC0 hw hu.2.2).trans (congrArg _ (if_neg hidx)))

theorem code0_runsTo (hidx : s.dp.fidx = 0) (hu : Undisturbed s) :
    RunsTo s (emitAll s.dp.strict [(1, s.dp.len.toNat - 1)]) := by
  refine .emitAll_cons hw hu ((step_sC0 hw hu.2.2).trans (congrArg _ (if_pos hidx))) ?_
  exact code0_complete (hw.sent ..) (by simp [sent, hidx]) hu

end Code0

/-- Settles O18: the step by `code0Work`'s branches, the run by `code0_runsTo`. -/
theorem code0OneFrame : Obligations.Code0OneFrame := by
  intro s hw
  rw [exec_tocCode0_of_sC0 hw]
  refine ⟨fun hidx hbig => ?_, fun hidx hfits => ?_, fun hidx => congrArg _ (if_neg hidx), fun hidx hu hfits => ?_⟩
  · rw [code0Work, if_pos hidx, emit_of_tooBig hbig]
  · rw [code0Work, if_pos hidx, emit_of_fits hfits, presented_same_pos, hidx]
    rfl
  · obtain ⟨k, t, hrun, hw', -, hout, hsink, hregs⟩ := code0_runsTo hw hidx hu
    rw [emitAll_of_fits (by simpa using hfits)] at hout hsink hregs
    exact ⟨k, t, hrun, hw'.1, hout, hsink, congrArg Regs.numFrames hregs⟩

/-! ### CODE1 -/

section Code1

variable {s : State} (hw : Working .sC1 s)
include hw

theorem step_sC1 (hh : s.host = []) : step s = .next (code1Work s) := by
  rw [step_of_fsmWork_run hw hh (fsmWork_of_sC1 hw.1), exec_tocCode1_of_sC1 hw]

theorem code1_second_runsTo (hidx : s.dp.fidx = 1) (hu : Undisturbed s) :
    RunsTo s (emitAll s.dp.strict [(1 + (s.dp.len.toNat - 1) / 2, (s.dp.len.toNat - 1) / 2)]) := by
  have hemit : code1Work s = emit (1 + (s.dp.len.toNat - 1) / 2) ((s.dp.len.toNat - 1) / 2) s.dp.pos.toNat s :=
    (if_neg (by simp [hidx])).trans (if_pos hidx)
  refine .emitAll_cons hw hu ((step_sC1 hw hu.2.2).trans (congrArg _ hemit)) ?_
  refine .complete (hw.sent ..) hu ((step_sC1 (hw.sent ..) hu.2.2).trans (congrArg _ ?_))
  exact (if_neg (by simp [sent, hidx])).trans (if_neg (by simp [sent, hidx]))

theorem code1_runsTo (hidx : s.dp.fidx = 0) (hu : Undisturbed s) :
    RunsTo s (parseCode1 s.dp.strict s.dp.len.toNat) := by
  have hstep := step_sC1 hw hu.2.2
  rw [parseCode1]
  split
  · rename_i heven
    exact .raise hw hu (hstep.trans (congrArg _ ((if_pos hidx).trans (if_pos heven))))
  · rename_i hodd
    refine .emitAll_cons hw hu (hstep.trans (congrArg _ ((if_pos hidx).trans (if_neg hodd)))) ?_
    exact code1_second_runsTo (hw.sent ..) (by simp [sent, hidx]) hu

end Code1

/-- Settles O19: the step by `code1Work`'s branches, the run by `code1_runsTo`. -/
theorem code1TwoEqualFrames : Obligations.Code1TwoEqualFrames := by
  intro s hw h
  have hfirst (hidx : s.dp.fidx = 0) (hodd : s.dp.len.toNat % 2 = 1) : code1Work s = emit 1 h s.dp.pos.toNat s :=
    (if_pos hidx).trans (if_neg (by omega))
  have hsecond (hidx : s.dp.fidx = 1) : code1Work s = emit (1 + h) h s.dp.pos.toNat s :=
    (if_neg (by simp [hidx])).trans (if_pos hidx)
  rw [exec_tocCode1_of_sC1 hw]
  refine ⟨fun hidx heven => congrArg _ ((if_pos hidx).trans (if_pos heven)), fun hidx hodd hbig => ?_,
    fun hidx hodd hfits => ?_, fun hidx hbig => ?_, fun hidx hfits => ?_,
    fun h0 h1 => congrArg _ ((if_neg h0).trans (if_neg h1)), fun hidx hu hodd hfits => ?_⟩
  · rw [hfirst hidx hodd, emit_of_tooBig hbig]
  · rw [hfirst hidx hodd, emit_of_fits hfits, presented_same_pos, hidx]
    rfl
  · rw [hsecond hidx, emit_of_tooBig hbig]
  · rw [hsecond hidx, emit_of_fits hfits, presented_same_pos, hidx]
    rfl
  · obtain ⟨k, t, hrun, hw', -, hout, hsink, hregs⟩ := code1_runsTo hw hidx hu
    rw [parseCode1, if_neg (by omega), emitAll_of_fits (by simpa using hfits)] at hout hsink hregs
    exact ⟨k, t, hrun, hw'.1, hout, hsink, congrArg Regs.numFrames hregs⟩

/-! ### CODE2 -/

/-- LEN_DECODE fails at every caller: the window is empty, or cut short after a first byte of 252 or more (R140). -/
theorem step_of_len_missing {f : Fsm} {s : State} {p stop : Nat} (hw : Working f s) (hh : s.host = [])
    (haw : awaitedField s = some (.len, p, stop))
    (h : stop ≤ p ∨ (stop = p + 1 ∧ ∃ b0, Memory.read s.pktBuf p = some b0 ∧ 252 ≤ b0.toNat)) :
    step s = .next (raise .packetTooSmall s) := by
  refine step_of_fsmWork_raise hw hh ((fsmWork_of_awaits_len haw).trans ?_)
  obtain hempty | ⟨rfl, b0, hread, hb⟩ := h
  · exact lenField_empty hempty
  · exact lenField_cutShort (Nat.lt_succ_self p) hread hb le_rfl

section Code2

variable {s : State} (hw : Working .sC2 s)
include hw

theorem expectsLen_sC2_of_first (hidx : s.dp.fidx = 0) : s.expectsLen = true :=
  (expectsLen_of_sC2 hw.1).trans (decide_eq_true hidx)

theorem awaitedField_sC2 (hidx : s.dp.fidx = 0) : awaitedField s = some (.len, 1, s.dp.len.toNat) := by
  simp [awaitedField, hw.1, expectsLen_sC2_of_first hw hidx]

theorem step_sC2_rest (hidx : s.dp.fidx ≠ 0) (hh : s.host = []) : step s = .next (code2Work s) := by
  have hexp : s.expectsLen = false := (expectsLen_of_sC2 hw.1).trans (decide_eq_false hidx)
  rw [step_of_fsmWork_run hw hh (fsmWork_of_sC2 hw.1 hexp), exec_tocCode2_of_sC2 hw hidx]

/-- CODE2 after its first frame: the rest of the packet, then COMPLETE. -/
theorem code2_rest_runsTo (hidx : s.dp.fidx = 1) (hu : Undisturbed s) :
    RunsTo s (emitAll s.dp.strict [(s.dp.pos.toNat, s.dp.len.toNat - s.dp.pos.toNat)]) := by
  refine .emitAll_cons hw hu
    ((step_sC2_rest hw (by simp [hidx]) hu.2.2).trans (congrArg _ (if_pos hidx))) ?_
  refine .complete (hw.sent ..) hu ((step_sC2_rest (hw.sent ..) (by simp [sent, hidx]) hu.2.2).trans (congrArg _ ?_))
  exact if_neg (by simp [sent, hidx])

/-- Frame 0 of CODE2, once it is presented, and the run after it. -/
theorem code2_presented_runsTo {v n : Nat} (hidx : s.dp.fidx = 0) (hu : Undisturbed s)
    (hpos : 1 + n + v < 65536) :
    RunsTo (presented (1 + n) v (1 + n + v) (withPos (1 + n) s)) (⟨word16 (1 + n), word16 v⟩ ::
      (emitAll s.dp.strict [(1 + n + v, s.dp.len.toNat - (1 + n + v))]).1,
      (emitAll s.dp.strict [(1 + n + v, s.dp.len.toNat - (1 + n + v))]).2) := by
  have hwpos : Working .sC2 (withPos (1 + n) s) := hw
  have hrest := code2_rest_runsTo (s := sent (1 + n) v (1 + n + v) (withPos (1 + n) s)) (hwpos.sent ..)
    (by simp [sent, withPos, hidx]) hu
  have hcur : (sent (1 + n) v (1 + n + v) (withPos (1 + n) s)).dp.pos.toNat = 1 + n + v := toNat_word16 hpos
  rw [hcur] at hrest
  exact .presented (s := withPos (1 + n) s) hu hrest

end Code2

/-- Settles O20: the length field's step by `lenCode2`, the rest by `code2Work`, the run by the two `RunsTo`. -/
theorem code2ExplicitThenRest : Obligations.Code2ExplicitThenRest := by
  intro s i v n hw hwf hval
  have hv := lenRowValue_le hwf hval
  have hn : n ≤ 2 := by
    obtain ⟨-, -, -, h, -⟩ | ⟨-, -, -, -, h, -, -⟩ := lenRowValue_cases hwf hval <;> omega
  have hlen (hidx : s.dp.fidx = 0) : exec i s = .next (lenCode2 v n s) :=
    exec_lenRow_of_sC2 hval (expectsLen_sC2_of_first hw hidx) hw
  have hfirst (hidx : s.dp.fidx = 0) (hfits : v ≤ s.dp.len.toNat - (1 + n)) :
      exec i s = .next (presented (1 + n) v (1 + n + v) (withPos (1 + n) s)) := by
    obtain ⟨hover, -⟩ | ⟨-, he⟩ := lenCode2_cases v n s
    · omega
    · rw [hlen hidx, he, emit_of_fits (.inr hv)]
  have hrest (hidx : s.dp.fidx = 1) :
      exec .tocCode2 s = .next (emit s.dp.pos.toNat (s.dp.len.toNat - s.dp.pos.toNat) s.dp.pos.toNat s) :=
    (exec_tocCode2_of_sC2 hw (by simp [hidx])).trans (congrArg _ (if_pos hidx))
  refine ⟨fun hidx => awaitedField_sC2 hw hidx, fun hidx hh hmiss => ?_, fun hidx hover => ?_, fun hidx hfits => ?_,
    fun hidx hbig => ?_, fun hidx hfits => ?_, fun h0 h1 => ?_, fun hidx hu hfits hfits' => ?_⟩
  · exact step_of_len_missing hw hh (awaitedField_sC2 hw hidx) hmiss
  · rw [hlen hidx, lenCode2, if_pos hover]
    rfl
  · rw [hfirst hidx hfits, presented]
    simp [withPos, hidx]
  · rw [hrest hidx, emit_of_tooBig hbig]
  · rw [hrest hidx, emit_of_fits hfits, presented_same_pos, hidx, word16_toNat]
    rfl
  · exact (exec_tocCode2_of_sC2 hw h0).trans (congrArg _ (if_neg h1))
  · obtain ⟨k, t, hrun, hw', -, hout, hsink, hregs⟩ :=
      code2_presented_runsTo (v := v) (n := n) hw hidx hu (by have := s.dp.len.isLt; omega)
    rw [emitAll_of_fits (by simpa using hfits')] at hout hsink hregs
    exact ⟨_, k, t, hfirst hidx hfits, hrun, hw'.1, hout, hsink, congrArg Regs.numFrames hregs⟩

end Sys2Proof.Machine

/-! The frames of Code 3 step by step, the padding's result registers, and the bound of an explicit frame
(41_length_decoder.md R141, R143, 42_code_splitter.md R167 to R171). -/

namespace Sys2Proof.Machine

/-! ### Explicit frames -/

/-- An Emit of a frame that cannot be too big leaves the outcome. -/
theorem emit_outcome_of_le {off n pos' : Nat} {s : State} (h : n ≤ 1275) : (emit off n pos' s).outcome = s.outcome := by
  rw [emit_of_fits (.inr h)]
  rfl

/-- Settles O4: of the works of a length field two emit, a frame of at most 1275 bytes, and no error is FrameTooBig. -/
theorem explicitFrameNeverTooBig : Obligations.ExplicitFrameNeverTooBig := by
  intro i v n s t hwf hval
  have hv := lenRowValue_le hwf hval
  refine ⟨hv, fun h hout => ?_⟩
  rw [exec_lenRow hval] at h
  obtain ⟨-, -, ⟨-, rfl⟩ | ⟨-, -, rfl⟩ | ⟨-, -, rfl⟩⟩ := lenForm_next h
  · obtain ⟨-, he⟩ | ⟨-, he⟩ := lenCode2_cases v n s <;> rw [he]
    · exact fun h => ParseError.noConfusion (Option.some.inj h)
    · rwa [emit_outcome_of_le hv]
  · obtain ⟨-, he⟩ | ⟨-, he⟩ := lenInterleaved_cases v n s <;> rw [he]
    · exact fun h => ParseError.noConfusion (Option.some.inj h)
    · rwa [emit_outcome_of_le hv]
  · exact hout

/-! ### The padding's registers -/

theorem flagWord_true (k : Nat) : flagWord true k = 1#32 <<< k := rfl

/-- Two halves of a word, one above the other. -/
theorem halves_toNat (hi lo : BitVec 16) :
    (hi.setWidth 32 <<< 16) ||| lo.setWidth 32 = BitVec.ofNat 32 (hi.toNat * 2 ^ 16 + lo.toNat) := by
  have hhi := hi.isLt
  have hlo := lo.isLt
  refine BitVec.eq_of_toNat_eq ?_
  have hshift : hi.toNat <<< 16 = hi.toNat * 2 ^ 16 := Nat.shiftLeft_eq ..
  rw [BitVec.toNat_or, BitVec.toNat_shiftLeft, BitVec.toNat_setWidth, BitVec.toNat_setWidth, BitVec.toNat_ofNat,
    Nat.mod_eq_of_lt (by omega : hi.toNat < 2 ^ 32), Nat.mod_eq_of_lt (by omega : lo.toNat < 2 ^ 32),
    Nat.mod_eq_of_lt (by omega : hi.toNat <<< 16 < 2 ^ 32), ← Nat.shiftLeft_add_eq_or_of_lt hlo, hshift,
    Nat.mod_eq_of_lt (by omega)]

/-- Settles O25: the three words from the fields `paddingResult` writes, exact because the padding fits the packet. -/
theorem paddingResultRegisters : Obligations.PaddingResultRegisters := by
  intro s hfits
  have hlen := s.dp.len.isLt
  refine ⟨?_, ?_, ?_, rfl⟩
  · change flagWord true 31 ||| s.dp.padHdr.setWidth 32 = _
    rw [flagWord_true, BitVec.or_comm, BitVec.ofNat_toNat]
  · change ((word16 (s.dp.len.toNat - s.dp.padData.toNat)).setWidth 32 <<< 16)
      ||| (word16 s.dp.padData.toNat).setWidth 32 = _
    rw [halves_toNat, toNat_word16 (by omega), toNat_word16 (by omega)]
  · change (BitVec.ofNat 17 (s.dp.padHdr.toNat + s.dp.padData.toNat)).setWidth 32 = _
    rw [← BitVec.ofNat_toNat, toNat_ofNat_of_lt (by omega)]

/-- Settles O23: with no padding data the region ends at LEN. -/
theorem code3RegionWithoutPadding : Obligations.Code3RegionWithoutPadding := by
  intro s v m hw hc hdata
  rw [exec_c3Row_of_sC3p hw hc, fixRegion, hdata]
  simp

/-! ### The Code 3 rows where the frames are -/

theorem c3Is_iff {s : State} {v p : Bool} {m : BitVec 6} :
    s.c3Is v p m = true ↔ s.dp.vbr = v ∧ s.dp.padf = p ∧ s.dp.m = m := by
  simp [State.c3Is, and_assoc]

theorem expectsLen_eq_false_of_sC3f {s : State} (hf : s.fsm = .sC3f)
    (h : s.dp.vbr = true → match s.params.layout with
      | .interleaved => s.dp.m.toNat ≤ s.dp.fidx.toNat + 1
      | .grouped => s.dp.m.toNat ≤ s.dp.lens.length + 1) : s.expectsLen = false := by
  refine Bool.eq_false_iff.mpr fun hexp => ?_
  obtain ⟨hv, hlt⟩ := (expectsLen_of_sC3f hf).mp hexp
  have hle := h hv
  cases hl : s.params.layout <;> simp only [hl] at hlt hle <;> omega

/-- Settles O26: with M = 0 no length is due and `c3Frame` completes; the invariant counts no frame. -/
theorem code3NoFramesCompletes : Obligations.Code3NoFramesCompletes := by
  intro s v p hinv hw hc
  obtain ⟨-, -, hm⟩ := c3Is_iff.mp hc
  obtain ⟨-, -, ⟨hcount, hpres, -⟩, hdp⟩ := hinv
  have hexp : s.expectsLen = false := expectsLen_eq_false_of_sC3f hw.1 fun _ => by
    cases s.params.layout <;> simp [hm]
  refine ⟨?_, ?_⟩
  · rw [exec_c3Row_of_sC3f hw hc hexp, c3Frame, if_pos hm]
  · obtain ⟨-, -, -, hidx, -⟩ := hdp.frameRegion hw.1
    rw [hm] at hidx
    rw [hcount]
    exact BitVec.eq_of_toNat_eq (Nat.le_zero.mp ((Nat.le_add_right ..).trans (hpres.trans_le hidx)))

/-- Settles O27: `cbrFrame` branch by branch; at the last frame the cursor is M frames past the chain. -/
theorem code3CbrFrames : Obligations.Code3CbrFrames := by
  intro s p m hdp hw hc hm R f
  obtain ⟨hv, -, rfl⟩ := c3Is_iff.mp hc
  obtain ⟨-, hlow, hhigh, -, hcbr, -⟩ := hdp.frameRegion hw.1
  obtain ⟨hpos, hdvd⟩ := hcbr hv
  have hexp : s.expectsLen = false := expectsLen_eq_false_of_sC3f hw.1 fun hv' => by simp [hv] at hv'
  have hexec : exec (c3Row false p s.dp.m) s = .next (cbrFrame s) := by
    rw [exec_c3Row_of_sC3f hw hc hexp, c3Frame_of_cbr hm hv]
  have hemit (hidx : s.dp.fidx ≠ s.dp.m) (hdvd : R % s.dp.m.toNat = 0) :
      cbrFrame s = emit s.dp.pos.toNat f (s.dp.pos.toNat + f) s :=
    (if_neg hidx).trans (if_neg (not_not_intro hdvd))
  rw [hexec]
  refine ⟨fun hidx => ?_, fun hidx => ⟨congrArg _ (if_pos hidx), ?_⟩, fun hidx hrem => ?_, fun hidx hrem hbig => ?_,
    fun hidx hrem hfits => ?_⟩
  · rw [hpos, hidx]
    simp [R]
  · refine BitVec.eq_of_toNat_eq (hpos.trans ?_)
    rw [hidx, Nat.mul_div_cancel' (Nat.dvd_of_mod_eq_zero (hdvd (hidx ▸ hm)))]
    exact Nat.add_sub_cancel' (hlow.trans hhigh)
  · exact congrArg _ ((if_neg hidx).trans (if_pos hrem))
  · rw [hemit hidx hrem, emit_of_tooBig hbig]
  · rw [hemit hidx hrem, emit_of_fits hfits, presented, word16_toNat]

/-- The last frame of a VBR packet as the two layouts share it (R170, R171). -/
theorem lastFrame_of_last {s : State} (h : s.dp.fidx.toNat + 1 = s.dp.m.toNat) :
    lastFrame s = emit s.dp.pos.toNat (s.dp.regionEnd.toNat - s.dp.pos.toNat) s.dp.pos.toNat s := if_pos h

theorem lastFrame_of_done {s : State} (h : s.dp.fidx = s.dp.m) : lastFrame s = complete s :=
  if_neg (by rw [h]; omega)

/-- The last frame, presented. -/
theorem emit_last_of_fits {s : State} (h : s.dp.strict = false ∨ s.dp.regionEnd.toNat - s.dp.pos.toNat ≤ 1275) :
    emit s.dp.pos.toNat (s.dp.regionEnd.toNat - s.dp.pos.toNat) s.dp.pos.toNat s = { s with
      port := some ⟨s.dp.pos, word16 (s.dp.regionEnd.toNat - s.dp.pos.toNat)⟩
      dp := { s.dp with fidx := s.dp.fidx + 1 } } := by
  rw [emit_of_fits h, presented_same_pos, word16_toNat]

theorem awaitedField_sC3f {s : State} (hw : Working .sC3f s) (hexp : s.expectsLen = true) :
    awaitedField s = some (.len, s.dp.pos.toNat, s.dp.regionEnd.toNat) := by
  simp [awaitedField, hw.1, hexp]

/-- Settles O28: a length field's step by `lenInterleaved`, the last frame's by `lastFrame`. -/
theorem code3VbrInterleavedFrames : Obligations.Code3VbrInterleavedFrames := by
  intro s p m i v n hw hl hc hm hwf hval
  obtain ⟨hv, -, rfl⟩ := c3Is_iff.mp hc
  have hexp (hidx : s.dp.fidx.toNat + 1 < s.dp.m.toNat) : s.expectsLen = true :=
    (expectsLen_of_sC3f hw.1).mpr ⟨hv, by simpa only [hl] using hidx⟩
  have hlen (hidx : s.dp.fidx.toNat + 1 < s.dp.m.toNat) : exec i s = .next (lenInterleaved v n s) :=
    exec_lenRow_of_interleaved hval (hexp hidx) hw hl
  have hrow (hidx : s.dp.m.toNat ≤ s.dp.fidx.toNat + 1) : exec (c3Row true p s.dp.m) s = .next (lastFrame s) := by
    have hnone : s.expectsLen = false := expectsLen_eq_false_of_sC3f hw.1 fun _ => by simpa only [hl] using hidx
    rw [exec_c3Row_of_sC3f hw hc hnone, c3Frame_of_interleaved hm hv hl]
  refine ⟨fun hidx => awaitedField_sC3f hw (hexp hidx), fun hidx hh hmiss => ?_, fun hidx hover => ?_,
    fun hidx hfits => ?_, fun hidx hbig => ?_, fun hidx hfits => ?_, fun hidx => ?_⟩
  · exact step_of_len_missing hw hh (awaitedField_sC3f hw (hexp hidx)) hmiss
  · rw [hlen hidx, lenInterleaved, if_pos hover]
    rfl
  · obtain ⟨hover, -⟩ | ⟨-, he⟩ := lenInterleaved_cases v n s
    · omega
    · rw [hlen hidx, he, emit_of_fits (.inr (lenRowValue_le hwf hval))]
      rfl
  · rw [hrow hidx.ge, lastFrame_of_last hidx, emit_of_tooBig hbig]
  · rw [hrow hidx.ge, lastFrame_of_last hidx, emit_last_of_fits hfits]
  · rw [hrow (by rw [hidx]; omega), lastFrame_of_done hidx]

/-- Settles O29: a length field's step by `lenGrouped`, the frames' by `groupedFrame`, whose sum the invariant keeps
exact. -/
theorem code3VbrGroupedFrames : Obligations.Code3VbrGroupedFrames := by
  intro s p m i v n hdp hw hl hc hm hwf hval
  obtain ⟨hv, -, rfl⟩ := c3Is_iff.mp hc
  obtain ⟨⟨-, -, -, -, hlsum, -, hle⟩, -⟩ := (datapathInv_iff s).mp hdp
  have hexp (hdue : s.dp.lens.length + 1 < s.dp.m.toNat) : s.expectsLen = true :=
    (expectsLen_of_sC3f hw.1).mpr ⟨hv, by simpa only [hl] using hdue⟩
  refine ⟨fun hdue => awaitedField_sC3f hw (hexp hdue),
    fun hdue hh hmiss => step_of_len_missing hw hh (awaitedField_sC3f hw (hexp hdue)) hmiss,
    fun hdue => exec_lenRow_of_grouped hval (hexp hdue) hw hl, fun hfull => ?_⟩
  have hnone : s.expectsLen = false := expectsLen_eq_false_of_sC3f hw.1 fun _ => by simpa only [hl] using hfull.ge
  rw [exec_c3Row_of_sC3f hw hc hnone, c3Frame_of_grouped hm hv hl, ← hlsum]
  refine ⟨fun h0 hover => congrArg _ (if_pos ⟨h0, hover⟩), fun hfits => ?_⟩
  have hsum : ¬ (s.dp.fidx = 0 ∧ s.dp.regionEnd.toNat < s.dp.pos.toNat + s.dp.lsum.toNat) := by
    rintro ⟨h0, hover⟩
    obtain hne | hle := hfits
    · exact hne h0
    · omega
  have hlast (hidx : ¬ s.dp.fidx.toNat + 1 < s.dp.m.toNat) : groupedFrame s = lastFrame s :=
    (if_neg hsum).trans (if_neg hidx)
  refine ⟨fun l hget => ?_, fun hidx hbig => ?_, fun hidx hfits => ?_, fun hidx => ?_⟩
  · obtain ⟨hlt, rfl⟩ := List.getElem?_eq_some_iff.mp hget
    have hframe : groupedFrame s = _ := (if_neg hsum).trans (if_pos (by omega))
    rw [hframe, List.getD_eq_getElem _ _ hlt, emit_of_fits (.inr (hle _ (List.getElem_mem hlt))), presented,
      word16_toNat]
  · rw [hlast (by omega), lastFrame_of_last hidx, emit_of_tooBig hbig]
  · rw [hlast (by omega), lastFrame_of_last hidx, emit_last_of_fits hfits]
  · rw [hlast (by rw [hidx]; omega), lastFrame_of_done hidx]

end Sys2Proof.Machine

/-! The register words field by field (10_state.md R25 to R33), and their values after a reset (R41). -/

namespace Sys2Proof.Machine

/-! ### Fields of a word

A register word is an `|||` of fields, each shifted to its place, so a part of the word is read field by field. -/

/-- A field, read at its own place. -/
theorem extractLsb'_field_same {n p : Nat} (x : BitVec n) (h : p + n ≤ 32) :
    (x.setWidth 32 <<< p).extractLsb' p n = x := by
  refine BitVec.eq_of_getLsbD_eq fun k hk => ?_
  simp [hk, show p + k < 32 by omega]

/-- A part of the word below the field. -/
theorem extractLsb'_field_below {n p a w : Nat} (x : BitVec n) (h : a + w ≤ p) :
    (x.setWidth 32 <<< p).extractLsb' a w = 0#w := by
  refine BitVec.eq_of_getLsbD_eq fun k hk => ?_
  simp [show a + k < p by omega]

/-- A part of the word above the field. -/
theorem extractLsb'_field_above {n p a w : Nat} (x : BitVec n) (h : p + n ≤ a) :
    (x.setWidth 32 <<< p).extractLsb' a w = 0#w := by
  refine BitVec.eq_of_getLsbD_eq fun k hk => ?_
  have hx : x.getLsbD (a + k - p) = false := BitVec.getLsbD_of_ge x _ (by omega)
  simp [hx]

/-- A flag is a field of one bit. -/
theorem flagWord_field (b : Bool) (k : Nat) : flagWord b k = (BitVec.ofBool b).setWidth 32 <<< k := by
  cases b <;> simp [flagWord]

/-- A field at the word's low end. -/
theorem setWidth_field {n : Nat} (x : BitVec n) : x.setWidth 32 = x.setWidth 32 <<< 0 := by simp

theorem flagBit_eq_extractLsb' {w : Nat} (x : BitVec w) (k : Nat) (b : Bool) :
    flagBit x k = b ↔ x.extractLsb' k 1 = BitVec.ofBool b := by
  have hbit : x.extractLsb' k 1 = BitVec.ofBool (flagBit x k) := BitVec.eq_of_getLsbD_eq fun i hi => by
    obtain rfl : i = 0 := by omega
    simp
  rw [hbit]
  cases flagBit x k <;> cases b <;> decide

section Words

variable (s : State)

theorem ctrl_fields : let w := s.registerWord 0x00
    flagBit w 0 = false ∧ flagBit w 1 = s.regs.ctrl.strict ∧ flagBit w 2 = s.regs.ctrl.irqEn
      ∧ w.extractLsb' 3 29 = 0 := by
  have hw : s.registerWord 0x00 = (BitVec.ofBool s.regs.ctrl.irqEn).setWidth 32 <<< 2
      ||| (BitVec.ofBool s.regs.ctrl.strict).setWidth 32 <<< 1 := by
    rw [← flagWord_field, ← flagWord_field]
    rfl
  simp only [hw, flagBit_eq_extractLsb', BitVec.extractLsb'_or]
  simp (disch := omega) only [extractLsb'_field_same, extractLsb'_field_below, extractLsb'_field_above, BitVec.or_zero,
    BitVec.zero_or, BitVec.ofBool_false, BitVec.ofNat_eq_ofNat, and_self]

theorem status_fields : let w := s.registerWord 0x04
    flagBit w 0 = decide (s.fsm ≠ .idle) ∧ flagBit w 1 = s.regs.status.done ∧ flagBit w 2 = s.regs.status.err
      ∧ flagBit w 3 = false ∧ w.extractLsb' 4 4 = s.regs.status.errCode ∧ w.extractLsb' 8 24 = 0 := by
  have hbusy : s.busy = decide (s.fsm ≠ .idle) := by
    rw [State.busy, bne_eq, decide_not]
    rfl
  have hw : s.registerWord 0x04 = s.regs.status.errCode.setWidth 32 <<< 4
      ||| (BitVec.ofBool s.regs.status.err).setWidth 32 <<< 2 ||| (BitVec.ofBool s.regs.status.done).setWidth 32 <<< 1
      ||| (BitVec.ofBool s.busy).setWidth 32 <<< 0 := by
    rw [← flagWord_field, ← flagWord_field, ← flagWord_field]
    rfl
  simp only [hw, flagBit_eq_extractLsb', BitVec.extractLsb'_or, ← hbusy]
  simp (disch := omega) only [extractLsb'_field_same, extractLsb'_field_below, extractLsb'_field_above, BitVec.or_zero,
    BitVec.zero_or, BitVec.ofBool_false, BitVec.ofNat_eq_ofNat, and_self]

theorem tocInfo_fields : let w := s.registerWord 0x0C
    w.extractLsb' 0 5 = s.regs.tocInfo.config ∧ flagBit w 5 = s.regs.tocInfo.stereo
      ∧ w.extractLsb' 6 2 = s.regs.tocInfo.code ∧ w.extractLsb' 8 2 = s.regs.tocInfo.mode.toBits
      ∧ w.extractLsb' 10 3 = s.regs.tocInfo.bw.toBits ∧ w.extractLsb' 13 3 = s.regs.tocInfo.dur.toBits
      ∧ w.extractLsb' 16 15 = 0 ∧ flagBit w 31 = s.regs.tocInfo.valid := by
  have hw : s.registerWord 0x0C = (BitVec.ofBool s.regs.tocInfo.valid).setWidth 32 <<< 31
      ||| s.regs.tocInfo.dur.toBits.setWidth 32 <<< 13 ||| s.regs.tocInfo.bw.toBits.setWidth 32 <<< 10
      ||| s.regs.tocInfo.mode.toBits.setWidth 32 <<< 8 ||| s.regs.tocInfo.code.setWidth 32 <<< 6
      ||| (BitVec.ofBool s.regs.tocInfo.stereo).setWidth 32 <<< 5 ||| s.regs.tocInfo.config.setWidth 32 <<< 0 := by
    rw [← flagWord_field, ← flagWord_field, ← setWidth_field]
    rfl
  simp only [hw, flagBit_eq_extractLsb', BitVec.extractLsb'_or]
  simp (disch := omega) only [extractLsb'_field_same, extractLsb'_field_below, extractLsb'_field_above, BitVec.or_zero,
    BitVec.zero_or, BitVec.ofNat_eq_ofNat, and_self]

theorem c3Info_fields : let w := s.registerWord 0x10
    w.extractLsb' 0 6 = s.regs.c3Info.m ∧ flagBit w 6 = s.regs.c3Info.pad ∧ flagBit w 7 = s.regs.c3Info.vbr
      ∧ w.extractLsb' 8 23 = 0 ∧ flagBit w 31 = s.regs.c3Info.valid := by
  have hw : s.registerWord 0x10 = (BitVec.ofBool s.regs.c3Info.valid).setWidth 32 <<< 31
      ||| (BitVec.ofBool s.regs.c3Info.vbr).setWidth 32 <<< 7 ||| (BitVec.ofBool s.regs.c3Info.pad).setWidth 32 <<< 6
      ||| s.regs.c3Info.m.setWidth 32 <<< 0 := by
    rw [← flagWord_field, ← flagWord_field, ← flagWord_field, ← setWidth_field]
    rfl
  simp only [hw, flagBit_eq_extractLsb', BitVec.extractLsb'_or]
  simp (disch := omega) only [extractLsb'_field_same, extractLsb'_field_below, extractLsb'_field_above, BitVec.or_zero,
    BitVec.zero_or, BitVec.ofNat_eq_ofNat, and_self]

theorem padInfo_fields : let w := s.registerWord 0x18
    w.extractLsb' 0 16 = s.regs.padInfo.hdrLen ∧ w.extractLsb' 16 15 = 0 ∧ flagBit w 31 = s.regs.padInfo.valid := by
  have hw : s.registerWord 0x18 = (BitVec.ofBool s.regs.padInfo.valid).setWidth 32 <<< 31
      ||| s.regs.padInfo.hdrLen.setWidth 32 <<< 0 := by
    rw [← flagWord_field, ← setWidth_field]
    rfl
  simp only [hw, flagBit_eq_extractLsb', BitVec.extractLsb'_or]
  simp (disch := omega) only [extractLsb'_field_same, extractLsb'_field_below, extractLsb'_field_above, BitVec.or_zero,
    BitVec.zero_or, BitVec.ofNat_eq_ofNat, and_self]

theorem padData_fields : let w := s.registerWord 0x1C
    w.extractLsb' 0 16 = s.regs.padData.len ∧ w.extractLsb' 16 16 = s.regs.padData.off := by
  have hw : s.registerWord 0x1C = s.regs.padData.off.setWidth 32 <<< 16 ||| s.regs.padData.len.setWidth 32 <<< 0 := by
    rw [← setWidth_field]
    rfl
  simp only [hw, BitVec.extractLsb'_or]
  simp (disch := omega) only [extractLsb'_field_same, extractLsb'_field_below, extractLsb'_field_above, BitVec.or_zero,
    BitVec.zero_or, and_self]

/-- A register that is one field at the word's low end: PKT_LEN, NUM_FRAMES, PAD_TOTAL. -/
theorem low_field {n : Nat} (x : BitVec n) (h : n ≤ 32) :
    (x.setWidth 32).extractLsb' 0 n = x ∧ (x.setWidth 32).extractLsb' n (32 - n) = 0#(32 - n) := by
  rw [setWidth_field]
  exact ⟨extractLsb'_field_same x (by omega), extractLsb'_field_above x (by omega)⟩

end Words

/-- Settles O6: register by register. -/
theorem registerWordsCarryTheirFields : Obligations.RegisterWordsCarryTheirFields := by
  intro s
  exact ⟨ctrl_fields s, status_fields s, low_field s.regs.pktLen (by decide), tocInfo_fields s, c3Info_fields s,
    low_field s.regs.numFrames (by decide), padInfo_fields s, padData_fields s, low_field s.regs.padTotal (by decide)⟩

/-! ### Every register at 0 -/

/-- Every word reads 0 in IDLE with every register at 0, reserved offsets among them. -/
theorem registerWord_of_zero {s : State} (hregs : s.regs = Regs.zero) (hf : s.fsm = .idle) (o : Nat) :
    s.registerWord o = 0 := by
  have hbusy : s.busy = false := by rw [State.busy, hf]; rfl
  unfold State.registerWord
  rw [hregs, hbusy]
  split <;> rfl

theorem registerWord_reserved {o : Nat} (h : 0x24 ≤ o) (s : State) : s.registerWord o = 0 := by
  unfold State.registerWord
  split
  case h_10 => rfl
  all_goals omega

/-- Settles O43: the reset state is IDLE with every register at 0 and no cell written. -/
theorem resetValues : Obligations.ResetValues :=
  ⟨registerWord_of_zero rfl rfl, rfl, rfl, rfl, fun _ => rfl⟩

end Sys2Proof.Machine

/-! The TOC byte's rows one by one (40_toc_config.md R120, R121). -/

namespace Sys2Proof.Machine

/-- Settles O12: the ROM's 32 rows are computed. -/
theorem configurationTableRows : Obligations.ConfigurationTableRows := by
  refine ⟨?_, ?_, ?_, ?_, ?_⟩ <;> decide

/-- Settles O13: the 32 rows are one row with the index as its operand, and `tocConfigRow` has them all. -/
theorem configurationRowsWriteTocInfo : Obligations.ConfigurationRowsWriteTocInfo := by
  refine ⟨fun k s hw hph => exec_tocConfigRow_of_working hw hph k, fun i => ⟨?_, fun hi => ?_⟩⟩
  · rintro ⟨k, rfl⟩
    revert k
    decide
  · have hall : ∀ j ∈ [Instr.cfg00, .cfg01, .cfg02, .cfg03, .cfg04, .cfg05, .cfg06, .cfg07, .cfg08, .cfg09, .cfg10,
        .cfg11, .cfg12, .cfg13, .cfg14, .cfg15, .cfg16, .cfg17, .cfg18, .cfg19, .cfg20, .cfg21, .cfg22, .cfg23, .cfg24,
        .cfg25, .cfg26, .cfg27, .cfg28, .cfg29, .cfg30, .cfg31], ∃ k, tocConfigRow k = j := by decide
    exact hall i hi

/-- Settles O14: the stereo rows by `afterStereo`, the Codes' rows by `dispatchCode` to `codeState`. -/
theorem stereoAndCodeRowsWriteTocInfo : Obligations.StereoAndCodeRowsWriteTocInfo := by
  intro s hw
  refine ⟨fun hph => ⟨exec_tocStereoRow_of_working hw hph false, exec_tocStereoRow_of_working hw hph true⟩,
    fun hph i c f hmem => ?_⟩
  have hrow : ∀ r ∈ [(Instr.tocCode0, 0#2, Fsm.sC0), (.tocCode1, 1#2, .sC1), (.tocCode2, 2#2, .sC2),
      (.tocCode3, 3#2, .sC3h)], r.1 = tocCodeRow r.2.1 ∧ r.2.2 = codeState r.2.1 := by decide
  obtain ⟨rfl, rfl⟩ : i = tocCodeRow c ∧ f = codeState c := hrow _ hmem
  exact exec_tocCodeRow_of_working hw hph c

end Sys2Proof.Machine

/-! Host accesses by their address and width, resets and waits (20_memory.md R64, R65, R74, 43_validity_fsm.md R235,
70_reset_and_hazards.md R281, 30_encoding.md R92). -/

namespace Sys2Proof.Machine

/-! ### Writes -/

theorem lt_mapEnd_of_decodeBus {pktMax offset width : Nat} {d : Word} {i : Instr}
    (h : decodeBus pktMax offset width d = .ok i) : offset < Config.mapEnd := by
  by_contra hge
  rw [decodeBus, if_neg (fun hlt => hge (hlt.trans (by decide : Config.pktWinOff < Config.mapEnd))), if_neg hge] at h
  cases h

theorem hostTurn_of_access {s : State} {delay : Nat} (hdue : delay = 0 ∨ s.fsm = .idle) (addr width : Nat) (d : Word) :
    hostTurn ⟨delay, .write addr width d⟩ s = true ∧ hostTurn ⟨delay, .read addr width⟩ s = true := by
  simpa [hostTurn] using hdue

/-- Settles O9: an offset that decodes is an offset of the map, and the write is the command it decodes to. -/
theorem stepRunsTheHostCommand : Obligations.StepRunsTheHostCommand := by
  intro s delay offset width d rest i hh hdue hdec
  have hin := s.outside_base_add (lt_mapEnd_of_decodeBus hdec)
  have hwork : hostWork (.write (s.params.base + offset) width d) s = .command i := by
    simp [hostWork, hostWrite, hin, hdec]
  rw [step_of_hostTurn hh (hostTurn_of_access hdue ..).1, hostStep, hwork]

section Accesses

variable {s : State} {delay offset width : Nat} {d : Word} {rest : List HostEvent} (hlt : offset < Config.mapEnd)
include hlt

/-- A write that the bus decode rejects (R24, R64, R65). -/
theorem hostWork_of_rejected {e : DecodeError} (hrst : s.rst = false)
    (hdec : decodeBus s.params.pktMax offset width d = .error e) :
    hostWork (.write (s.params.base + offset) width d) s = rejectAccess e s := by
  simp [hostWork, hostWrite, s.outside_base_add hlt, hdec, hrst]

theorem step_of_noEffect (hrst : s.rst = false) (hdue : delay = 0 ∨ s.fsm = .idle)
    (hh : s.host = ⟨delay, .write (s.params.base + offset) width d⟩ :: rest)
    (hdec : decodeBus s.params.pktMax offset width d = .error .noEffect) : step s = .next { s with host := rest } := by
  rw [step_of_hostWork_done hh (hostTurn_of_access hdue ..).1 (hostWork_of_rejected hlt hrst hdec),
    retire_of_host hh]

/-- A read inside the map. -/
theorem hostWork_read (width : Nat) :
    hostWork (.read (s.params.base + offset) width) s = readOffset offset width s := by
  simp [hostWork, hostRead, s.outside_base_add hlt]

end Accesses

theorem decodeRegisterWrite_noEffect {offset : Nat} {d : Word}
    (h : 0x0C ≤ offset ∨ (offset = 0x04 ∧ flagBit d 1 = false)) : decodeRegisterWrite offset d = .error .noEffect := by
  obtain hge | ⟨rfl, hbit⟩ := h
  · unfold decodeRegisterWrite
    split
    case h_4 => rfl
    all_goals omega
  · simp only [decodeRegisterWrite, hbit, Bool.false_eq_true, if_false]

theorem decodeBus_register {offset : Nat} (pktMax : Nat) (d : Word) (hlt : offset < 0x10000) (halign : offset % 4 = 0) :
    decodeBus pktMax offset 32 d = decodeRegisterWrite offset d := by
  rw [decodeBus, if_pos (show offset < Config.pktWinOff from hlt), if_pos ⟨rfl, halign⟩]

/-- Past the buffer a window write of an allowed width reaches no cell (R24, R65; log 26). -/
theorem decodeWindowWrite_noEffect {pktMax i width : Nat} {d : Word} (hw : width = 8 ∨ (width = 32 ∧ i % 4 = 0))
    (hi : pktMax ≤ i) : decodeWindowWrite pktMax i width d = .error .noEffect := by
  obtain rfl | ⟨rfl, halign⟩ := hw
  · rw [decodeWindowWrite, if_pos rfl, if_neg (by omega)]
  · rw [decodeWindowWrite, if_neg (by decide), if_pos ⟨rfl, halign⟩, if_neg (by omega)]

/-- A window offset is `PKT_WIN_OFF` and the cell, aligned alike. -/
theorem exists_window_cell {offset : Nat} (hge : 0x10000 ≤ offset) (hlt : offset < 0x20000) :
    ∃ i, offset = Config.pktWinOff + i ∧ i < 65536 ∧ offset % 4 = i % 4 := by
  refine ⟨offset - Config.pktWinOff, ?_, ?_, ?_⟩ <;> simp only [Config.pktWinOff] <;> omega

/-- Settles O37: reserved words read 0, and each of the writes decodes to no effect. -/
theorem reservedAndReadOnlyWrites : Obligations.ReservedAndReadOnlyWrites := by
  intro s delay offset width d rest hrst hh hdue
  refine ⟨fun _ _ hge _ => registerWord_reserved hge s, fun hw halign hlt hro => ?_, fun hw hge hlt => ?_⟩
  · subst hw
    refine step_of_noEffect (hlt.trans (by decide)) hrst hdue hh ?_
    rw [decodeBus_register _ d hlt halign, decodeRegisterWrite_noEffect hro]
  · refine step_of_noEffect hlt hrst hdue hh ?_
    obtain ⟨i, rfl, hi, hmod⟩ := exists_window_cell ((Nat.le_add_right ..).trans hge) hlt
    rw [hmod] at hw
    rw [decodeBus_window hi, decodeWindowWrite_noEffect hw (Nat.le_of_add_le_add_left hge)]

/-! ### Refused accesses -/

theorem readOffset_register_refused {offset width : Nat} {s : State} (hrst : s.rst = false) (hlt : offset < 0x10000)
    (hodd : ¬ (width = 32 ∧ offset % 4 = 0)) :
    readOffset offset width s = .refused (.registerAccess offset width) := by
  rw [readOffset, if_neg (by simp [hrst]), if_pos (show offset < Config.pktWinOff from hlt), if_neg hodd]
  rfl

theorem readOffset_window_refused {i width : Nat} {s : State} (hrst : s.rst = false)
    (hodd : ¬ (width = 8 ∨ (width = 32 ∧ i % 4 = 0))) :
    readOffset (Config.pktWinOff + i) width s = .refused (.windowAccess (Config.pktWinOff + i) width) := by
  rw [not_or] at hodd
  simp only [readOffset, hrst, Nat.add_sub_cancel_left, if_neg hodd.1, if_neg hodd.2, Bool.false_eq_true, if_false,
    if_neg (show ¬ Config.pktWinOff + i < Config.pktWinOff by omega), rejectAccess]

theorem decodeWindowWrite_refused {pktMax i width : Nat} {d : Word} (hodd : ¬ (width = 8 ∨ (width = 32 ∧ i % 4 = 0))) :
    decodeWindowWrite pktMax i width d = .error (.windowAccess (Config.pktWinOff + i) width) := by
  rw [not_or] at hodd
  rw [decodeWindowWrite, if_neg hodd.1, if_neg hodd.2]

/-- Settles O39: the write by the bus decode's error, the read by `readOffset`'s. -/
theorem oddAccessesAreRefused : Obligations.OddAccessesAreRefused := by
  intro s delay offset width d a rest hrst hh hdue ha
  have hrefused {r : Refusal} (hlt : offset < Config.mapEnd) {e : DecodeError} (he : rejectAccess e s = .refused r)
      (hwrite : decodeBus s.params.pktMax offset width d = .error e)
      (hread : readOffset offset width s = .refused r) : step s = .refused r := by
    obtain rfl | rfl := ha
    · exact step_of_hostWork_refused hh (hostTurn_of_access hdue _ _ d).1
        ((hostWork_of_rejected hlt hrst hwrite).trans he)
    · exact step_of_hostWork_refused hh (hostTurn_of_access hdue _ _ d).2 ((hostWork_read hlt width).trans hread)
  refine ⟨fun hlt hodd => ?_, fun hge hlt hodd => ?_⟩
  · refine hrefused (hlt.trans (by decide)) (e := .registerAccess offset width) rfl ?_
      (readOffset_register_refused hrst hlt hodd)
    rw [decodeBus, if_pos (show offset < Config.pktWinOff from hlt), if_neg hodd]
  · obtain ⟨i, rfl, hi, hmod⟩ := exists_window_cell hge hlt
    rw [hmod] at hodd
    refine hrefused hlt (e := .windowAccess _ width) rfl ?_ (readOffset_window_refused hrst hodd)
    rw [decodeBus_window hi, decodeWindowWrite_refused hodd]

/-! ### Reads of the packet window -/

theorem windowByte_of_written {s : State} {i : Nat} {b : Byte} (hi : i < s.params.pktMax)
    (h : Memory.read s.pktBuf i = some b) (draw : Nat) : s.windowByte i draw = b := by
  rw [State.windowByte, if_pos hi, h, Option.getD_some]

theorem windowByte_of_past {s : State} {i : Nat} (hi : s.params.pktMax ≤ i) (draw : Nat) : s.windowByte i draw = 0 :=
  if_neg (Nat.not_lt.mpr hi)

/-- The bytes of four put together, the lowest in bits 7:0. -/
theorem fourBytes (b3 b2 b1 b0 : Byte) :
    (b3 ++ b2 ++ b1 ++ b0).extractLsb' 0 8 = b0 ∧ (b3 ++ b2 ++ b1 ++ b0).extractLsb' 8 8 = b1
      ∧ (b3 ++ b2 ++ b1 ++ b0).extractLsb' 16 8 = b2 ∧ (b3 ++ b2 ++ b1 ++ b0).extractLsb' 24 8 = b3 := by
  refine ⟨BitVec.extractLsb'_append_eq_right, ?_, ?_, ?_⟩
  · rw [BitVec.extractLsb'_append_eq_of_le (by decide : 8 ≤ 8)]
    exact BitVec.extractLsb'_append_eq_right
  · rw [BitVec.extractLsb'_append_eq_of_le (by decide : 8 ≤ 16),
      BitVec.extractLsb'_append_eq_of_le (by decide : 8 ≤ 8)]
    exact BitVec.extractLsb'_append_eq_right
  · rw [BitVec.extractLsb'_append_eq_of_le (by decide : 8 ≤ 24),
      BitVec.extractLsb'_append_eq_of_le (by decide : 8 ≤ 16)]
    exact BitVec.extractLsb'_append_eq_left

/-- Byte `k` of a window word is the window byte of cell `i + k` (R65). -/
theorem windowWord_byte (s : State) (i : Nat) {k : Nat} (hk : k < 4) :
    (s.windowWord i).extractLsb' (8 * k) 8 = s.windowByte (i + k) (s.draws + k) := by
  obtain ⟨h0, h1, h2, h3⟩ := fourBytes (s.windowByte (i + 3) (s.draws + 3)) (s.windowByte (i + 2) (s.draws + 2))
    (s.windowByte (i + 1) (s.draws + 1)) (s.windowByte i s.draws)
  interval_cases k
  · exact h0
  · exact h1
  · exact h2
  · exact h3

/-- A window read of an allowed width returns a word whose bytes are window bytes. -/
theorem readOffset_window {i width : Nat} {s : State} (hrst : s.rst = false)
    (hw : width = 8 ∨ (width = 32 ∧ i % 4 = 0)) :
    ∃ w n, readOffset (Config.pktWinOff + i) width s = .done (returnRead w n s)
      ∧ ∀ k, 8 * k < width → w.extractLsb' (8 * k) 8 = s.windowByte (i + k) (s.draws + k) := by
  have hoff : ¬ Config.pktWinOff + i < Config.pktWinOff := by omega
  obtain rfl | ⟨rfl, halign⟩ := hw
  · refine ⟨(s.windowByte i s.draws).setWidth 32, 1, ?_, fun k hk => ?_⟩
    · simp [readOffset, hrst, hoff]
    · obtain rfl : k = 0 := by omega
      rw [BitVec.extractLsb'_setWidth_of_le (by decide)]
      simp
  · refine ⟨s.windowWord i, 4, ?_, fun k hk => windowWord_byte s i (by omega)⟩
    simp [readOffset, hrst, hoff, halign]

/-- Settles O38: the read's word byte by byte, each a written cell, a free byte, or 0 past the buffer. -/
theorem windowReads : Obligations.WindowReads := by
  intro s delay i width rest hrst hh hdue hi hw
  have haddr : s.params.base + 0x10000 + i = s.params.base + (Config.pktWinOff + i) := Nat.add_assoc ..
  rw [haddr] at hh
  have hlt : Config.pktWinOff + i < Config.mapEnd := by
    simp only [Config.pktWinOff, Config.mapEnd]
    omega
  obtain ⟨w, n, hread, hbytes⟩ := readOffset_window hrst hw
  refine ⟨returnRead w n s, step_of_hostWork_done hh (hostTurn_of_access hdue _ _ 0).2
    ((hostWork_read hlt width).trans hread), ?_, fun k hk => ⟨fun b hin hb => ?_, fun hpast => ?_⟩⟩
  · rw [returnRead_frame, hh, List.tail_cons]
  · exact (hbytes k hk).trans (windowByte_of_written hin hb _)
  · exact (hbytes k hk).trans (windowByte_of_past hpast _)

/-! ### Reset and waits -/

/-- Settles O41: a change of `rst` is `applyReset`, after which every register word reads 0. -/
theorem resetEffect : Obligations.ResetEffect := by
  intro s b rest hh hne
  have hwork : hostWork (.setRst b) s = .done { applyReset s.retire with rst := b } := by
    rw [hostWork, setRst, if_neg hne]
  refine ⟨{ applyReset s.retire with rst := b }, step_of_hostWork_done hh (by simp [hostTurn]) hwork, rfl, rfl, rfl,
    rfl,
    rfl, fun _ => rfl, rfl, rfl, ?_, registerWord_of_zero rfl rfl⟩
  rw [applyReset_host, retire_host, hh, List.tail_cons]

theorem step_of_host_waits {s : State} {e : HostEvent} {rest : List HostEvent} (hh : s.host = e :: rest)
    (hturn : hostTurn e s = false) : step s = blockStep s.countDown := by
  simp [step, hh, hturn]

/-- Settles O45: a wait's turn is what it waits for; WAIT's last poll reads STATUS and draws nothing. -/
theorem hostWaits : Obligations.HostWaits := by
  intro s delay rest hrst
  refine ⟨fun hh => ⟨fun hdone => ?_, fun hdone => ?_⟩, fun hh => ⟨fun hirq => ?_, fun hirq => ?_⟩⟩
  · rw [step_of_hostWork_done hh (by simp [hostTurn, hdone, hrst]) rfl, returnRead_frame, hh, List.tail_cons]
    rfl
  · exact step_of_host_waits hh (by simp [hostTurn, hdone])
  · rw [step_of_hostWork_done hh (by simp [hostTurn, hirq]) rfl, retire_of_host hh]
  · exact step_of_host_waits hh (by simp [hostTurn, hirq])

end Sys2Proof.Machine

/-! Termination of an undisturbed parse (43_validity_fsm.md R221): every block step makes a measure of the work left
smaller. -/

namespace Sys2Proof.Machine

/-- The work left to a parse whose frames are up: those not yet presented, the one on the port, and the lengths of the
grouped layout not yet read. -/
def framesLeft (s : State) : Nat :=
  2 + 2 * (64 - s.dp.fidx.toNat) + (if s.port.isSome then 1 else 0) + (64 - s.dp.lens.length)

/-- The work left to a parse, in each FSM state more than in those that may follow it. -/
def workLeft (s : State) : Nat :=
  match s.fsm with
  | .idle => 0
  | .sFin => 1
  | .sC0 | .sC1 | .sC2 | .sC3f => framesLeft s
  | .sC3p => 200 + (s.dp.len.toNat - s.dp.pos.toNat)
  | .sC3h => 65800
  | .sToc =>
    match s.tocPhase with
    | .code => 65801
    | .stereo => 65802
    | .config => 65803

theorem framesLeft_bounds (s : State) : 2 ≤ framesLeft s ∧ framesLeft s < 200 := by
  unfold framesLeft
  split <;> omega

theorem workLeft_of_frames {s : State} (h : s.fsm = .sC0 ∨ s.fsm = .sC1 ∨ s.fsm = .sC2 ∨ s.fsm = .sC3f) :
    workLeft s = framesLeft s := by
  obtain h | h | h | h := h <;> simp only [workLeft, h]

theorem workLeft_sC3p {s : State} (h : s.fsm = .sC3p) : workLeft s = 200 + (s.dp.len.toNat - s.dp.pos.toNat) := by
  simp only [workLeft, h]

/-- Before S_FIN every state has more than one step's work left. -/
theorem two_le_workLeft {s : State} (hidle : s.fsm ≠ .idle) (hfin : s.fsm ≠ .sFin) : 2 ≤ workLeft s := by
  have hframes := (framesLeft_bounds s).1
  unfold workLeft
  split
  · exact absurd ‹_› hidle
  · exact absurd ‹_› hfin
  · exact hframes
  · exact hframes
  · exact hframes
  · exact hframes
  · omega
  · omega
  · split <;> omega

theorem workLeft_raise (e : ParseError) (s : State) : workLeft (raise e s) = 1 := rfl

theorem workLeft_complete (s : State) : workLeft (complete s) = 1 := rfl

/-- An Emit ends the work with an error, or trades a frame for a descriptor on the port. -/
theorem workLeft_emit {f : Fsm} {s : State} (hw : Working f s)
    (hf : f = .sC0 ∨ f = .sC1 ∨ f = .sC2 ∨ f = .sC3f) (hidx : s.dp.fidx.toNat < 63) (off n pos' : Nat) :
    workLeft (emit off n pos' s) < workLeft s := by
  have hfsm := hw.1.symm ▸ hf
  rw [workLeft_of_frames hfsm]
  obtain ⟨-, -, he⟩ | ⟨-, he⟩ := emit_cases off n pos' s <;> rw [he]
  · rw [workLeft_raise]
    have := (framesLeft_bounds s).1
    omega
  · change workLeft (presented off n pos' s) < framesLeft s
    rw [workLeft_of_frames (s := presented off n pos' s) hfsm]
    simp only [framesLeft, presented, hw.2.1, toNat_fidx_succ hidx, Option.isSome_some, Option.isSome_none, if_true,
      Bool.false_eq_true, if_false]
    omega

theorem workLeft_acceptDesc {s : State} {d : Desc} (hinv : PortInv s) (hready : s.sinkReady = true)
    (hport : s.port = some d) : workLeft (acceptDesc d s) < workLeft s := by
  obtain ⟨-, -, hemits⟩ := hinv
  have hfsm := hemits (by simp [hport])
  rw [acceptDesc_ready hready, workLeft_of_frames hfsm,
    workLeft_of_frames (s := { s with port := none, sink := _, dp := _, regs := _ }) hfsm]
  simp [framesLeft, hport]

theorem workLeft_withPos {s : State} (h : s.fsm = .sC0 ∨ s.fsm = .sC1 ∨ s.fsm = .sC2 ∨ s.fsm = .sC3f) (p : Nat) :
    workLeft (withPos p s) = workLeft s := by
  rw [workLeft_of_frames h, workLeft_of_frames (s := withPos p s) h]
  rfl

theorem workLeft_dispatchCode (c : BitVec 2) (s : State) : workLeft (dispatchCode c (codeState c) s) < 65801 := by
  have hframes := (framesLeft_bounds (dispatchCode c (codeState c) s)).2
  obtain rfl | rfl | rfl | rfl := code_cases c
  · rw [workLeft_of_frames (.inl rfl)]
    omega
  · rw [workLeft_of_frames (.inr (.inl rfl))]
    omega
  · rw [workLeft_of_frames (.inr (.inr (.inl rfl)))]
    omega
  · exact Nat.lt_succ_self 65800

theorem workLeft_fixRegion (s : State) : workLeft (fixRegion s) < 200 := by
  rw [workLeft_of_frames (.inr (.inr (.inr rfl)))]
  exact (framesLeft_bounds _).2

theorem workLeft_readHeader (v p : Bool) (m : BitVec 6) (s : State) : workLeft (readHeader v p m s) < 65800 := by
  obtain he | he | he := readHeader_cases v p m s <;> rw [he]
  · exact Nat.one_lt_succ_succ _
  · exact Nat.one_lt_succ_succ _
  · have hlen := s.dp.len.isLt
    rw [workLeft_sC3p rfl]
    change 200 + (s.dp.len.toNat - 2) < 65800
    omega

theorem workLeft_padByte {s : State} (hdp : DatapathInv s) (hf : s.fsm = .sC3p)
    (hleft : s.dp.pos.toNat < s.dp.len.toNat) (b : Byte) (last : Bool) :
    workLeft (padByte b last s) < workLeft s := by
  obtain ⟨hpos, -, -⟩ := countPadByte_counters hdp hf hleft b
  rw [workLeft_sC3p hf]
  obtain he | ⟨-, he⟩ | ⟨-, he⟩ := padByte_cases b last s <;> rw [he]
  · rw [workLeft_raise]
    omega
  · have := workLeft_fixRegion (paddingResult (countPadByte b s))
    omega
  · rw [workLeft_sC3p (s := countPadByte b s) hf, hpos]
    change 200 + (s.dp.len.toNat - (s.dp.pos.toNat + 1)) < _
    omega

theorem workLeft_lenGrouped {s : State} (hf : s.fsm = .sC3f) (hcount : s.dp.lens.length ≤ 62) (v n : Nat) :
    workLeft (lenGrouped v n s) < workLeft s := by
  rw [workLeft_of_frames (.inr (.inr (.inr hf))), workLeft_of_frames (s := lenGrouped v n s) (.inr (.inr (.inr hf)))]
  have hlens : (lenGrouped v n s).dp.lens.length = s.dp.lens.length + 1 := List.length_append
  simp only [framesLeft, hlens]
  exact Nat.add_lt_add_left (by omega) _

/-- Every block step of an undisturbed parse leaves less work. -/
theorem BlockEffect.workLeft_lt {s t : State} (h : BlockEffect s t) (hinv : PortInv s) (hdp : DatapathInv s)
    (hu : Undisturbed s) (hbusy : s.fsm ≠ .idle) : workLeft t < workLeft s := by
  obtain ⟨hready, hrst, -⟩ := hu
  have hend {f : Fsm} {u : State} (hw : Working f s) (hf : f ≠ .sFin) (hu : workLeft u = 1) :
      workLeft u < workLeft s := by
    rw [hu]
    exact two_le_workLeft hbusy (hw.1 ▸ hf)
  cases h with
  | rest h =>
    obtain h | h := h
    · simp [hrst] at h
    · exact absurd h hbusy
  | accept d _ hport => exact workLeft_acceptDesc hinv hready hport
  | finish hw => simp [workLeft, hw.1]
  | raise e hw _ hfin => exact hend hw hfin (workLeft_raise e s)
  | config b hw hph => simp [workLeft, afterConfig, hw.1, hph]
  | stereo hw hph => simp [workLeft, afterStereo, hw.1, hph]
  | code c hw hph =>
    have hlt := workLeft_dispatchCode c s
    simpa only [workLeft, hw.1, hph] using hlt
  | code0 hw =>
    obtain ⟨hidx, he⟩ | ⟨-, he⟩ := code0Work_cases s <;> rw [he]
    · exact workLeft_emit hw (.inl rfl) (by simp [hidx]) ..
    · exact hend hw (by decide) (workLeft_complete s)
  | code1 hw =>
    obtain ⟨-, -, he⟩ | ⟨hidx, -, he⟩ | ⟨hidx, he⟩ | ⟨-, -, he⟩ := code1Work_cases s <;> rw [he]
    · exact hend hw (by decide) (workLeft_raise _ s)
    · exact workLeft_emit hw (.inr (.inl rfl)) (by simp [hidx]) ..
    · exact workLeft_emit hw (.inr (.inl rfl)) (by simp [hidx]) ..
    · exact hend hw (by decide) (workLeft_complete s)
  | len2 _ v n hw hidx =>
    have hwpos : Working .sC2 (withPos (1 + n) s) := hw
    obtain ⟨-, he⟩ | ⟨-, he⟩ := lenCode2_cases v n s <;> rw [he]
    · exact hend hw (by decide) (workLeft_raise _ _)
    · rw [← workLeft_withPos (.inr (.inr (.inl hw.1))) (1 + n)]
      exact workLeft_emit hwpos (.inr (.inr (.inl rfl))) (by simp [withPos, hidx]) ..
  | code2 hw =>
    obtain ⟨hidx, he⟩ | ⟨-, he⟩ := code2Work_cases s <;> rw [he]
    · exact workLeft_emit hw (.inr (.inr (.inl rfl))) (by simp [hidx]) ..
    · exact hend hw (by decide) (workLeft_complete s)
  | header v p m hw =>
    have hlt := workLeft_readHeader v p m s
    simpa only [workLeft, hw.1] using hlt
  | pad b last hw hp hleft => exact workLeft_padByte hdp hw.1 hleft b last
  | region hw =>
    rw [workLeft_sC3p hw.1]
    exact (workLeft_fixRegion s).trans_le (Nat.le_add_right ..)
  | interleaved _ v n hw hexp hl =>
    have hwpos : Working .sC3f (withPos (s.dp.pos.toNat + n) s) := hw
    obtain ⟨-, hidx⟩ := (expectsLen_of_sC3f hw.1).mp hexp
    simp only [hl] at hidx
    have hm := s.dp.m.isLt
    obtain ⟨-, he⟩ | ⟨-, he⟩ := lenInterleaved_cases v n s <;> rw [he]
    · exact hend hw (by decide) (workLeft_raise _ _)
    · rw [← workLeft_withPos (.inr (.inr (.inr hw.1))) (s.dp.pos.toNat + n)]
      exact workLeft_emit hwpos (.inr (.inr (.inr rfl))) (show s.dp.fidx.toNat < 63 by omega) ..
  | grouped _ v n hw =>
    obtain ⟨-, -, -, -, -, hcount, -⟩ := hdp
    exact workLeft_lenGrouped hw.1 hcount v n
  | frame hw =>
    have hreg := hdp.frameRegion hw.1
    have hm63 := s.dp.m.isLt
    have hout := c3Frame_outcome s
    generalize c3Frame s = t at hout
    cases hout with
    | complete => exact hend hw (by decide) (workLeft_complete s)
    | raise e => exact hend hw (by decide) (workLeft_raise e s)
    | emit n pos' _ hnext =>
      have hidx := hnext.fidx_lt hreg
      exact workLeft_emit hw (.inr (.inr (.inr rfl))) (by omega) ..

/-! ### Termination -/

theorem acceptDesc_undisturbed {s : State} (d : Desc) (hu : Undisturbed s) : Undisturbed (acceptDesc d s) := by
  obtain ⟨hready, hrst, hh⟩ := hu
  rw [acceptDesc_ready hready]
  exact ⟨hready, hrst, hh⟩

theorem BlockFrame.undisturbed {s t : State} (h : BlockFrame s t) (hu : Undisturbed s) : Undisturbed t := by
  cases h with
  | same | finish => exact hu
  | accept d => exact acceptDesc_undisturbed d hu
  | row _ b h =>
    obtain ⟨-, -, -, -, -, -, -, -, -, -, hrst, -, hready, hhost, -⟩ := h
    obtain ⟨hready', hrst', hh⟩ := hu
    exact ⟨hready.trans hready', hrst.trans hrst', hhost.trans hh⟩

theorem emit_fsm_ne_idle {s : State} (h : s.fsm ≠ .idle) (off n pos' : Nat) : (emit off n pos' s).fsm ≠ .idle := by
  obtain ⟨-, -, he⟩ | ⟨-, he⟩ := emit_cases off n pos' s <;> rw [he]
  · exact (by decide : Fsm.sFin ≠ .idle)
  · exact h

theorem FrameOutcome.fsm_ne_idle {s t : State} (h : FrameOutcome s t) (hbusy : s.fsm ≠ .idle) : t.fsm ≠ .idle := by
  cases h with
  | complete | raise => exact (by decide : Fsm.sFin ≠ .idle)
  | emit => exact emit_fsm_ne_idle hbusy _ _ _

/-- The block comes to rest only by `finish` (R229). -/
theorem BlockEffect.finish_of_idle {s t : State} (h : BlockEffect s t) (hrst : s.rst = false) (hbusy : s.fsm ≠ .idle)
    (hidle : t.fsm = .idle) : t = Machine.finish s := by
  have hfin : Fsm.sFin ≠ .idle := by decide
  have hemit {off n pos' : Nat} {P : Prop} (hi : (emit off n pos' s).fsm = .idle) : P :=
    absurd hi (emit_fsm_ne_idle hbusy _ _ _)
  cases h with
  | rest h =>
    obtain h | h := h
    · simp [hrst] at h
    · exact absurd h hbusy
  | finish => rfl
  | accept d =>
    have he : (acceptDesc d s).fsm = s.fsm := by
      unfold acceptDesc
      split <;> rfl
    exact absurd (he ▸ hidle) hbusy
  | raise e => exact absurd hidle hfin
  | config b | stereo | grouped _ v n => exact absurd hidle hbusy
  | code c =>
    have hcode : ∀ c, codeState c ≠ .idle := by decide
    exact absurd hidle (hcode c)
  | code0 =>
    obtain ⟨-, he⟩ | ⟨-, he⟩ := code0Work_cases s <;> rw [he] at hidle
    · exact hemit hidle
    · exact absurd hidle hfin
  | code1 =>
    obtain ⟨-, -, he⟩ | ⟨-, -, he⟩ | ⟨-, he⟩ | ⟨-, -, he⟩ := code1Work_cases s <;> rw [he] at hidle
    · exact absurd hidle hfin
    · exact hemit hidle
    · exact hemit hidle
    · exact absurd hidle hfin
  | code2 =>
    obtain ⟨-, he⟩ | ⟨-, he⟩ := code2Work_cases s <;> rw [he] at hidle
    · exact hemit hidle
    · exact absurd hidle hfin
  | len2 _ v n =>
    obtain ⟨-, he⟩ | ⟨-, he⟩ := lenCode2_cases v n s <;> rw [he] at hidle
    · exact absurd hidle hfin
    · exact absurd hidle (emit_fsm_ne_idle (s := withPos (1 + n) s) hbusy _ _ _)
  | interleaved _ v n =>
    obtain ⟨-, he⟩ | ⟨-, he⟩ := lenInterleaved_cases v n s <;> rw [he] at hidle
    · exact absurd hidle hfin
    · exact absurd hidle (emit_fsm_ne_idle (s := withPos (s.dp.pos.toNat + n) s) hbusy _ _ _)
  | header v p m =>
    obtain he | he | he := readHeader_cases v p m s <;> rw [he] at hidle
    · exact absurd hidle hfin
    · exact absurd hidle hfin
    · exact absurd hidle (by decide : Fsm.sC3p ≠ .idle)
  | pad b last =>
    obtain he | ⟨-, he⟩ | ⟨-, he⟩ := padByte_cases b last s <;> rw [he] at hidle
    · exact absurd hidle hfin
    · exact absurd hidle (by decide : Fsm.sC3f ≠ .idle)
    · exact absurd hidle hbusy
  | region => exact absurd hidle (by decide : Fsm.sC3f ≠ .idle)
  | frame => exact absurd hidle ((c3Frame_outcome s).fsm_ne_idle hbusy)

theorem core_run_succ_of_fault {k : Nat} {s s' : State} {x : Fault} (hstep : step s = .next s')
    (hrun : Host.Core.run Sys2Proof.core k s' = .fault x) : Host.Core.run Sys2Proof.core (k + 1) s = .fault x := by
  have hcore : Sys2Proof.core.step s = .next s' := hstep
  simpa only [Host.Core.run, hcore] using hrun

theorem core_run_one_of_fault {s : State} {x : Fault} (hstep : step s = .fault x) :
    Host.Core.run Sys2Proof.core 1 s = .fault x := by
  have hcore : Sys2Proof.core.step s = .fault x := hstep
  simp only [Host.Core.run, hcore]

/-- An undisturbed parse comes to rest with DONE, or meets an unwritten byte: by induction on the work left. -/
theorem terminates_of_busy (s : State) (hinv : OpfInv s) (hu : Undisturbed s) (hbusy : s.fsm ≠ .idle) :
    ∃ k, (∃ t, SafeRun k s t ∧ t.fsm = .idle ∧ t.regs.status.done = true)
      ∨ ∃ i, Host.Core.run Sys2Proof.core k s = .fault (.unwrittenPacketByte i) := by
  have hstep := step_of_host_nil hu.2.2
  obtain ⟨-, -, hport, hdp⟩ := id hinv
  generalize hr : step s = r at hstep
  cases hstep ▸ blockAnswer s with
  | fault j => exact ⟨1, .inr ⟨j, core_run_one_of_fault hr⟩⟩
  | @next t heff =>
    by_cases hidle : t.fsm = .idle
    · obtain rfl := heff.finish_of_idle hu.2.1 hbusy hidle
      exact ⟨1, .inl ⟨_, safeRun_succ hr rfl, rfl, Status.done_ofOutcome _⟩⟩
    · have hless : workLeft t < workLeft s := heff.workLeft_lt hport hdp hu hbusy
      obtain ⟨k, ⟨u, hrun, hend⟩ | ⟨i, hfault⟩⟩ :=
        terminates_of_busy t (stepKeepsInvariant s t hinv hr) (heff.frame_cases.undisturbed hu) hidle
      · exact ⟨k + 1, .inl ⟨u, safeRun_succ hr hrun, hend⟩⟩
      · exact ⟨k + 1, .inr ⟨i, core_run_succ_of_fault hr hfault⟩⟩
termination_by workLeft s

/-- Settles O56: the work left falls with every step. -/
theorem everyParseTerminates : Obligations.EveryParseTerminates :=
  fun s hinv hu hbusy => terminates_of_busy s hinv hu (by simpa [State.busy] using hbusy)

end Sys2Proof.Machine

/-! The total function `parse` (R160 to R177): what each of its parts can answer, and the statements about `parse`
alone. -/

namespace Sys2Proof.Machine

/-! ### Lengths, Emits and the padding chain -/

/-- LEN_DECODE stays in its window, and the value says how many bytes it took (R84, R140, R141). -/
theorem lenDecode_some {pkt : List Byte} {p stop v n : Nat} (h : lenDecode pkt p stop = some (v, n)) :
    p + n ≤ stop ∧ v ≤ 1275 ∧ n = if v ≤ 251 then 1 else 2 := by
  have h0 := (pkt.getD p 0).isLt
  have h1 := (pkt.getD (p + 1) 0).isLt
  simp only [lenDecode] at h
  generalize (pkt.getD p 0).toNat = b0 at h h0
  generalize (pkt.getD (p + 1) 0).toNat = b1 at h h1
  split at h
  · simp at h
  split at h
  · obtain ⟨rfl, rfl⟩ : b0 = v ∧ 1 = n := by simpa using h
    rw [if_pos ‹_›]
    omega
  split at h
  · simp at h
  · obtain ⟨rfl, rfl⟩ : b0 + b1 * 4 = v ∧ 2 = n := by simpa using h
    rw [if_neg (by omega)]
    omega

/-- A run of Emits that ends with OK passed every check. -/
theorem emitAll_ok {strict : Bool} {l : List (Nat × Nat)} (h : (emitAll strict l).2 = none) :
    emitAll strict l = (l.map fun p => ⟨word16 p.1, word16 p.2⟩, none) := by
  refine emitAll_of_fits ?_
  induction l with
  | nil => simp
  | cons p rest ih =>
    obtain ⟨off, n⟩ := p
    by_cases hbig : strict = true ∧ 1275 < n
    · simp [emitAll_cons_of_tooBig hbig] at h
    · rw [emitAll_cons_of_fits hbig] at h
      have hn : strict = false ∨ n ≤ 1275 := by
        cases strict
        · exact .inl rfl
        · exact .inr (by simpa using hbig)
      exact List.forall_mem_cons.mpr ⟨hn, ih h⟩

theorem emitAll_explicit {strict : Bool} {off v : Nat} (hv : v ≤ 1275) (rest : List (Nat × Nat)) :
    emitAll strict ((off, v) :: rest)
      = (⟨word16 off, word16 v⟩ :: (emitAll strict rest).1, (emitAll strict rest).2) :=
  emitAll_cons_of_fits (by omega) rest

/-- The chain and the padding it announces fit behind the header (R142). -/
theorem padChain_some {len : Nat} {l : List Byte} {hdr data hdr' data' : Nat}
    (h : padChain len l hdr data = some (hdr', data')) : hdr' + data' ≤ len - 2 := by
  induction l generalizing hdr data with
  | nil => simp [padChain] at h
  | cons b rest ih =>
    unfold padChain at h
    generalize data + (if b.toNat = 255 then 254 else b.toNat) = data1 at h
    by_cases hover : len - 2 < hdr + 1 + data1
    · simp [hover] at h
    by_cases hlast : b.toNat = 255
    · simp only [hover, hlast, if_true, if_false] at h
      exact ih h
    · obtain ⟨rfl, rfl⟩ : hdr + 1 = hdr' ∧ data1 = data' := by simpa [hover, hlast] using h
      omega

/-! ### One equation for each way through the parse of Code 3 -/

section Code3

variable {layout : VbrLayout} {strict : Bool} {t h : Byte} {rest : List Byte} {toc : TocInfo}

/-- CODE3_STRICT has nothing to refuse (R166). -/
def headerAccepted (strict : Bool) (toc : TocInfo) (h : Byte) : Prop :=
  strict = false ∨ ((c3InfoOf h).m.toNat ≠ 0 ∧ toc.dur.half * (c3InfoOf h).m.toNat ≤ 240)

theorem not_headerAccepted (hrefused : ¬ headerAccepted strict toc h) :
    strict = true ∧ ((c3InfoOf h).m.toNat ≠ 0 → 240 < toc.dur.half * (c3InfoOf h).m.toNat) := by
  cases strict with
  | false => exact absurd (.inl rfl) hrefused
  | true => exact ⟨rfl, fun hm => by simpa [headerAccepted, hm] using hrefused⟩

/-- The result of a Code 3 packet with a chain of `hdr` bytes and `data` bytes of padding (R143, R167). -/
def paddedResult (toc : TocInfo) (h : Byte) (len hdr data : Nat) (r : Emitted) : ParseResult :=
  ⟨r.1, toc, c3InfoOf h, ⟨word16 hdr, true⟩, ⟨word16 data, word16 (len - data)⟩, BitVec.ofNat 17 (hdr + data), r.2⟩

theorem parseCode3_noAudio (hm : (c3InfoOf h).m.toNat = 0) :
    parseCode3 layout true (t :: h :: rest) toc = noPadding toc (c3InfoOf h) ([], some .noAudio) :=
  if_pos ⟨rfl, hm⟩

theorem parseCode3_tooMuchAudio (hm : (c3InfoOf h).m.toNat ≠ 0) (hdur : 240 < toc.dur.half * (c3InfoOf h).m.toNat) :
    parseCode3 layout true (t :: h :: rest) toc = noPadding toc (c3InfoOf h) ([], some .tooMuchAudio) :=
  (if_neg (by simp [hm])).trans (if_pos ⟨rfl, hdur⟩)

variable (hacc : headerAccepted strict toc h)
include hacc

theorem parseCode3_of_accepted : parseCode3 layout strict (t :: h :: rest) toc =
    if (c3InfoOf h).pad = false then noPadding toc (c3InfoOf h)
      (parseC3Frames layout strict (c3InfoOf h).vbr (c3InfoOf h).m.toNat (t :: h :: rest) 2 (t :: h :: rest).length)
    else match padChain (t :: h :: rest).length rest 0 0 with
      | none => noPadding toc (c3InfoOf h) ([], some .lengthOverflow)
      | some (hdr, data) => paddedResult toc h (t :: h :: rest).length hdr data
          (parseC3Frames layout strict (c3InfoOf h).vbr (c3InfoOf h).m.toNat (t :: h :: rest) (2 + hdr)
            ((t :: h :: rest).length - data)) := by
  have hno : ¬ (strict = true ∧ (c3InfoOf h).m.toNat = 0) := by
    rintro ⟨rfl, hm⟩
    simp [headerAccepted, hm] at hacc
  have hmany : ¬ (strict = true ∧ 240 < toc.dur.half * (c3InfoOf h).m.toNat) := by
    rintro ⟨rfl, hdur⟩
    simp only [headerAccepted, Bool.true_eq_false, false_or] at hacc
    omega
  exact (if_neg hno).trans (if_neg hmany)

theorem parseCode3_unpadded (hpad : (c3InfoOf h).pad = false) : parseCode3 layout strict (t :: h :: rest) toc =
    noPadding toc (c3InfoOf h) (parseC3Frames layout strict (c3InfoOf h).vbr (c3InfoOf h).m.toNat (t :: h :: rest) 2
      (t :: h :: rest).length) :=
  (parseCode3_of_accepted hacc).trans (if_pos hpad)

theorem parseCode3_overflow (hpad : (c3InfoOf h).pad = true)
    (hchain : padChain (t :: h :: rest).length rest 0 0 = none) : parseCode3 layout strict (t :: h :: rest) toc =
    noPadding toc (c3InfoOf h) ([], some .lengthOverflow) := by
  rw [parseCode3_of_accepted hacc, if_neg (by simp [hpad]), hchain]

theorem parseCode3_padded (hpad : (c3InfoOf h).pad = true) {hdr data : Nat}
    (hchain : padChain (t :: h :: rest).length rest 0 0 = some (hdr, data)) :
    parseCode3 layout strict (t :: h :: rest) toc = paddedResult toc h (t :: h :: rest).length hdr data
      (parseC3Frames layout strict (c3InfoOf h).vbr (c3InfoOf h).m.toNat (t :: h :: rest) (2 + hdr)
        ((t :: h :: rest).length - data)) := by
  rw [parseCode3_of_accepted hacc, if_neg (by simp [hpad]), hchain]

end Code3

/-- What the parse of a Code 3 packet with a header comes to, in either layout: an error before the frames, the
frames of the whole rest, or those of the region before the padding. -/
theorem parseCode3_cases (strict : Bool) (t h : Byte) (rest : List Byte) (toc : TocInfo) :
    (∃ e, ∀ layout, parseCode3 layout strict (t :: h :: rest) toc = noPadding toc (c3InfoOf h) ([], some e))
      ∨ (headerAccepted strict toc h ∧ (c3InfoOf h).pad = false)
      ∨ ∃ hdr data, headerAccepted strict toc h ∧ (c3InfoOf h).pad = true
        ∧ padChain (t :: h :: rest).length rest 0 0 = some (hdr, data)
        ∧ 2 + hdr + data ≤ (t :: h :: rest).length := by
  by_cases hacc : headerAccepted strict toc h
  · cases hpad : (c3InfoOf h).pad with
    | false => exact .inr (.inl ⟨hacc, rfl⟩)
    | true =>
      cases hchain : padChain (t :: h :: rest).length rest 0 0 with
      | none => exact .inl ⟨_, fun _ => parseCode3_overflow hacc hpad hchain⟩
      | some r =>
        have hfits := padChain_some hchain
        have hlen : 2 ≤ (t :: h :: rest).length := Nat.le_add_left ..
        exact .inr (.inr ⟨r.1, r.2, hacc, rfl, rfl, by omega⟩)
  · obtain ⟨rfl, hdur⟩ := not_headerAccepted hacc
    by_cases hm : (c3InfoOf h).m.toNat = 0
    · exact .inl ⟨_, fun _ => parseCode3_noAudio hm⟩
    · exact .inl ⟨_, fun _ => parseCode3_tooMuchAudio hm (hdur hm)⟩

theorem parseCode3_c3Info (layout : VbrLayout) (strict : Bool) (t h : Byte) (rest : List Byte) (toc : TocInfo) :
    (parseCode3 layout strict (t :: h :: rest) toc).c3Info = c3InfoOf h := by
  obtain ⟨e, he⟩ | ⟨hacc, hpad⟩ | ⟨hdr, data, hacc, hpad, hchain, -⟩ := parseCode3_cases strict t h rest toc
  · rw [he]
    rfl
  · rw [parseCode3_unpadded hacc hpad]
    rfl
  · rw [parseCode3_padded hacc hpad hchain]
    rfl

/-! ### The explicit frames of the interleaved layout -/

section Interleaved

variable {strict : Bool} {pkt : List Byte} {stop k pos v n : Nat}

theorem parseInterleaved_missing (h : lenDecode pkt pos stop = none) :
    parseInterleaved strict pkt stop (k + 1) pos = ([], some .packetTooSmall) := by
  simp only [parseInterleaved, h]

theorem parseInterleaved_runsPast (h : lenDecode pkt pos stop = some (v, n)) (hpast : stop < pos + n + v) :
    parseInterleaved strict pkt stop (k + 1) pos = ([], some .packetTooSmall) := by
  simp only [parseInterleaved, h, if_pos hpast]

theorem parseInterleaved_fits (h : lenDecode pkt pos stop = some (v, n)) (hfits : pos + n + v ≤ stop) :
    parseInterleaved strict pkt stop (k + 1) pos = (⟨word16 (pos + n), word16 v⟩ ::
      (parseInterleaved strict pkt stop k (pos + n + v)).1, (parseInterleaved strict pkt stop k (pos + n + v)).2) := by
  obtain ⟨-, hv, -⟩ := lenDecode_some h
  have hone : emitAll strict [(pos + n, v)] = ([⟨word16 (pos + n), word16 v⟩], none) := emitAll_explicit hv []
  simp only [parseInterleaved, h, if_neg (Nat.not_lt.mpr hfits), hone, List.singleton_append]

end Interleaved

/-! ### One equation for each Code -/

section Codes

variable {layout : VbrLayout} {strict : Bool} {b : Byte} {rest : List Byte}

theorem parse_code0 (hc : (tocInfoOf b).code = 0) : parse layout strict (b :: rest)
    = noPadding (tocInfoOf b) C3Info.zero (emitAll strict [(1, (b :: rest).length - 1)]) := by
  simp [parse, hc]

theorem parse_code1 (hc : (tocInfoOf b).code = 1) : parse layout strict (b :: rest)
    = noPadding (tocInfoOf b) C3Info.zero (parseCode1 strict (b :: rest).length) := by
  simp [parse, hc]

theorem parse_code2 (hc : (tocInfoOf b).code = 2) : parse layout strict (b :: rest)
    = noPadding (tocInfoOf b) C3Info.zero (parseCode2 strict (b :: rest)) := by
  simp [parse, hc]

theorem parse_code3 (hc : (tocInfoOf b).code = 3) :
    parse layout strict (b :: rest) = parseCode3 layout strict (b :: rest) (tocInfoOf b) := by
  simp [parse, hc]

end Codes

/-! ### The two VBR layouts -/

/-- For up to two frames the layouts read the same field and send the same frames (R171). -/
theorem parseC3Frames_layouts {strict vbr : Bool} {m : Nat} {pkt : List Byte} {pos stop : Nat} (hm : m ≤ 2)
    (hpos : pos ≤ stop) :
    parseC3Frames .interleaved strict vbr m pkt pos stop = parseC3Frames .grouped strict vbr m pkt pos stop := by
  cases vbr with
  | false => rfl
  | true =>
    obtain rfl | rfl | rfl : m = 0 ∨ m = 1 ∨ m = 2 := by omega
    · rfl
    · change emitAll strict [(pos, stop - pos)] = parseGrouped strict pkt stop 1 pos
      simp [parseGrouped, readLengths, groupedFrames, hpos]
    · change parseInterleaved strict pkt stop 1 pos = parseGrouped strict pkt stop 2 pos
      cases hlen : lenDecode pkt pos stop with
      | none => simp [parseInterleaved_missing hlen, parseGrouped, readLengths, hlen]
      | some r =>
        obtain ⟨v, n⟩ := r
        obtain ⟨-, hv, -⟩ := lenDecode_some hlen
        by_cases hpast : stop < pos + n + v
        · simp [parseInterleaved_runsPast hlen hpast, parseGrouped, readLengths, hlen, hpast]
        · rw [parseInterleaved_fits hlen (Nat.not_lt.mp hpast)]
          simp [parseInterleaved, parseGrouped, readLengths, groupedFrames, hlen, hpast, emitAll_explicit hv]

theorem parseCode3_layouts {strict : Bool} {t h : Byte} {rest : List Byte} {toc : TocInfo}
    (hm : (c3InfoOf h).m.toNat ≤ 2) :
    parseCode3 .interleaved strict (t :: h :: rest) toc = parseCode3 .grouped strict (t :: h :: rest) toc := by
  obtain ⟨e, he⟩ | ⟨hacc, hpad⟩ | ⟨hdr, data, hacc, hpad, hchain, hfits⟩ := parseCode3_cases strict t h rest toc
  · rw [he, he]
  · rw [parseCode3_unpadded hacc hpad, parseCode3_unpadded hacc hpad, parseC3Frames_layouts (pos := 2) hm (by simp)]
  · rw [parseCode3_padded hacc hpad hchain, parseCode3_padded hacc hpad hchain, parseC3Frames_layouts hm (by omega)]

/-- Settles O60: only the frames of Code 3 know the layout. -/
theorem layoutsAgreeUpToTwoFrames : Obligations.LayoutsAgreeUpToTwoFrames := by
  intro strict pkt hm
  cases pkt with
  | nil => rfl
  | cons b rest =>
    obtain hc | hc | hc | hc := code_cases (tocInfoOf b).code
    · rw [parse_code0 hc, parse_code0 hc]
    · rw [parse_code1 hc, parse_code1 hc]
    · rw [parse_code2 hc, parse_code2 hc]
    · rw [parse_code3 hc] at hm
      rw [parse_code3 hc, parse_code3 hc]
      cases rest with
      | nil => rfl
      | cons h rest =>
        rw [parseCode3_c3Info] at hm
        exact parseCode3_layouts hm

/-! ### Strict and lenient parses -/

section Lenient

/-- A run of Emits that strict mode accepts is the same in lenient mode. -/
theorem emitAll_lenient {l : List (Nat × Nat)} (h : (emitAll true l).2 = none) : emitAll false l = emitAll true l := by
  rw [emitAll_ok h, emitAll_of_fits fun _ _ => .inl rfl]

theorem parseCode1_lenient {len : Nat} (h : (parseCode1 true len).2 = none) :
    parseCode1 false len = parseCode1 true len := by
  unfold parseCode1 at h ⊢
  split at h
  · simp at h
  · rw [if_neg ‹_›, if_neg ‹_›, emitAll_lenient h]

theorem parseCode2_lenient {pkt : List Byte} (h : (parseCode2 true pkt).2 = none) :
    parseCode2 false pkt = parseCode2 true pkt := by
  unfold parseCode2 at h ⊢
  cases hlen : lenDecode pkt 1 pkt.length with
  | none => rfl
  | some r =>
    simp only [hlen] at h ⊢
    split at h
    · simp at h
    · rw [if_neg ‹_›, if_neg ‹_›, emitAll_lenient h]

theorem parseCbr_lenient {m pos stop : Nat} (h : (parseCbr true m pos stop).2 = none) :
    parseCbr false m pos stop = parseCbr true m pos stop := by
  unfold parseCbr at h ⊢
  split at h
  · simp at h
  · rw [if_neg ‹_›, if_neg ‹_›, emitAll_lenient h]

theorem parseInterleaved_lenient {pkt : List Byte} {stop k pos : Nat}
    (h : (parseInterleaved true pkt stop k pos).2 = none) :
    parseInterleaved false pkt stop k pos = parseInterleaved true pkt stop k pos := by
  induction k generalizing pos with
  | zero => exact emitAll_lenient h
  | succ k ih =>
    cases hlen : lenDecode pkt pos stop with
    | none => rw [parseInterleaved_missing hlen, parseInterleaved_missing hlen]
    | some r =>
      by_cases hpast : stop < pos + r.2 + r.1
      · rw [parseInterleaved_runsPast hlen hpast, parseInterleaved_runsPast hlen hpast]
      · have hfits := Nat.not_lt.mp hpast
        rw [parseInterleaved_fits hlen hfits] at h ⊢
        rw [parseInterleaved_fits hlen hfits, ih h]

theorem parseGrouped_lenient {pkt : List Byte} {stop m pos : Nat} (h : (parseGrouped true pkt stop m pos).2 = none) :
    parseGrouped false pkt stop m pos = parseGrouped true pkt stop m pos := by
  unfold parseGrouped at h ⊢
  cases hlens : readLengths pkt stop (m - 1) pos with
  | none => rfl
  | some r =>
    simp only [hlens] at h ⊢
    split at h
    · simp at h
    · rw [if_neg ‹_›, if_neg ‹_›, emitAll_lenient h]

theorem parseC3Frames_lenient {layout : VbrLayout} {vbr : Bool} {m pos stop : Nat} {pkt : List Byte}
    (h : (parseC3Frames layout true vbr m pkt pos stop).2 = none) :
    parseC3Frames layout false vbr m pkt pos stop = parseC3Frames layout true vbr m pkt pos stop := by
  unfold parseC3Frames at h ⊢
  split
  · rfl
  rw [if_neg ‹_›] at h
  cases vbr with
  | false => exact parseCbr_lenient h
  | true =>
    cases layout with
    | interleaved => exact parseInterleaved_lenient h
    | grouped => exact parseGrouped_lenient h

theorem parseCode3_lenient {layout : VbrLayout} {pkt : List Byte} {toc : TocInfo}
    (h : (parseCode3 layout true pkt toc).outcome = none) :
    parseCode3 layout false pkt toc = parseCode3 layout true pkt toc := by
  match pkt with
  | [] | [_] => rfl
  | t :: hb :: rest =>
    obtain ⟨e, he⟩ | ⟨hacc, hpad⟩ | ⟨hdr, data, hacc, hpad, hchain, -⟩ := parseCode3_cases true t hb rest toc
    · simp [he, noPadding] at h
    · rw [parseCode3_unpadded hacc hpad] at h ⊢
      rw [parseCode3_unpadded (.inl rfl) hpad, parseC3Frames_lenient h]
    · rw [parseCode3_padded hacc hpad hchain] at h ⊢
      rw [parseCode3_padded (.inl rfl) hpad hchain, parseC3Frames_lenient h]

theorem parse_lenient {layout : VbrLayout} {pkt : List Byte} (h : validPacket layout true pkt) :
    parse layout false pkt = parse layout true pkt := by
  cases pkt with
  | nil => rfl
  | cons b rest =>
    unfold validPacket at h
    obtain hc | hc | hc | hc := code_cases (tocInfoOf b).code
    · rw [parse_code0 hc] at h ⊢
      rw [parse_code0 hc, emitAll_lenient h]
    · rw [parse_code1 hc] at h ⊢
      rw [parse_code1 hc, parseCode1_lenient h]
    · rw [parse_code2 hc] at h ⊢
      rw [parse_code2 hc, parseCode2_lenient h]
    · rw [parse_code3 hc] at h ⊢
      rw [parse_code3 hc, parseCode3_lenient h]

end Lenient

/-- Settles O59: what strict mode accepts, lenient mode parses the same. -/
theorem strictIsAtLeastAsRestrictive : Obligations.StrictIsAtLeastAsRestrictive := by
  intro layout pkt
  refine ⟨mt fun hstrict => ?_, parse_lenient⟩
  rwa [validPacket, parse_lenient hstrict]

end Sys2Proof.Machine

/-! Round trip of the lengths (R175): the frames of a successful parse stand one after another in their region, and
region, length fields and frames add up. -/

namespace Sys2Proof.Machine

/-! ### Frames that fill a region -/

/-- The bytes of the length field that an explicit length took, where there are fields at all (R84). -/
def fieldWidth (fields : Bool) (n : Nat) : Nat := if fields then if n ≤ 251 then 1 else 2 else 0

/-- The frames `ds` and the length fields of all but the last fill the region `[pos, stop)`, frame after frame. -/
structure Fills (fields : Bool) (pos stop : Nat) (ds : List Desc) : Prop where
  total : stop = pos + (ds.dropLast.map fun d => fieldWidth fields d.len.toNat).sum + (ds.map fun d => d.len.toNat).sum
  inside : ∀ d ∈ ds, pos ≤ d.off.toNat ∧ d.off.toNat + d.len.toNat ≤ stop
  rising : ds.Pairwise fun d e => d.off.toNat + d.len.toNat ≤ e.off.toNat

/-- The last frame takes the rest of the region. -/
theorem Fills.last {pos stop : Nat} (fields : Bool) (hpos : pos ≤ stop) (hstop : stop ≤ 65535) :
    Fills fields pos stop [⟨word16 pos, word16 (stop - pos)⟩] := by
  have hoff : (word16 pos).toNat = pos := toNat_word16 (by omega)
  have hlen : (word16 (stop - pos)).toNat = stop - pos := toNat_word16 (by omega)
  exact ⟨by simp only [List.dropLast_singleton, List.map_nil, List.map_cons, List.sum_nil, List.sum_cons, hlen]; omega,
    by simp only [List.mem_singleton, forall_eq, hoff, hlen]; omega, List.pairwise_singleton ..⟩

/-- A frame in front, behind its own length field if there are fields. -/
theorem Fills.cons {fields : Bool} {pos w v stop : Nat} {ds : List Desc} (hw : w = fieldWidth fields v) (hne : ds ≠ [])
    (hstop : stop ≤ 65535) (h : Fills fields (pos + w + v) stop ds) :
    Fills fields pos stop (⟨word16 (pos + w), word16 v⟩ :: ds) := by
  obtain ⟨htotal, hinside, hrising⟩ := h
  have hoff : (word16 (pos + w)).toNat = pos + w := toNat_word16 (by omega)
  have hlen : (word16 v).toNat = v := toNat_word16 (by omega)
  refine ⟨?_, List.forall_mem_cons.mpr ⟨?_, fun d hd => ?_⟩, List.pairwise_cons.mpr ⟨fun d hd => ?_, hrising⟩⟩
  · rw [List.dropLast_cons_of_ne_nil hne]
    simp only [List.map_cons, List.sum_cons, hlen, ← hw]
    omega
  · rw [hoff, hlen]
    omega
  · have := hinside d hd
    omega
  · rw [hoff, hlen]
    exact (hinside d hd).1

theorem sum_fieldWidth_false (ds : List Desc) : (ds.map fun d => fieldWidth false d.len.toNat).sum = 0 := by
  simp [fieldWidth]

/-- Frames alone from `pos'` on, behind the length fields of `[pos, pos')`. -/
theorem Fills.behind_fields {pos pos' stop : Nat} {ds : List Desc} (h : Fills false pos' stop ds)
    (hpos : pos' = pos + (ds.dropLast.map fun d => fieldWidth true d.len.toNat).sum) : Fills true pos stop ds := by
  obtain ⟨htotal, hinside, hrising⟩ := h
  rw [sum_fieldWidth_false] at htotal
  refine ⟨by omega, fun d hd => ?_, hrising⟩
  have := hinside d hd
  omega

/-! ### The frames of each Code -/

/-- The descriptors of a list of frames. -/
def descs (l : List (Nat × Nat)) : List Desc := l.map fun p => ⟨word16 p.1, word16 p.2⟩

section Frames

variable {strict : Bool} {pkt : List Byte} {pos stop : Nat}

theorem lenDecode_width {p v n : Nat} (h : lenDecode pkt p stop = some (v, n)) : n = fieldWidth true v :=
  (lenDecode_some h).2.2

theorem cbrFrames_fill (f k pos : Nat) (h : pos + (k + 1) * f ≤ 65535) :
    Fills false pos (pos + (k + 1) * f) (descs (cbrFrames f (k + 1) pos)) := by
  induction k generalizing pos with
  | zero => simpa [cbrFrames, descs] using Fills.last (stop := pos + (0 + 1) * f) false (Nat.le_add_right ..) h
  | succ k ih =>
    have hend : pos + (k + 1 + 1) * f = pos + 0 + f + (k + 1) * f := by
      rw [Nat.succ_mul (k + 1)]
      omega
    rw [hend] at h ⊢
    exact .cons (w := 0) rfl (by simp [cbrFrames]) h (ih _ h)

theorem parseCbr_fills {m : Nat} (hm : m ≠ 0) (hpos : pos ≤ stop) (hstop : stop ≤ 65535)
    (hok : (parseCbr strict m pos stop).2 = none) : Fills false pos stop (parseCbr strict m pos stop).1 := by
  unfold parseCbr at hok ⊢
  split at hok
  · simp at hok
  rename_i hdvd
  rw [if_neg hdvd, emitAll_ok hok]
  obtain ⟨k, rfl⟩ := Nat.exists_eq_succ_of_ne_zero hm
  have hend : pos + (k + 1) * ((stop - pos) / (k + 1)) = stop := by
    rw [Nat.mul_div_cancel' (Nat.dvd_of_mod_eq_zero (not_not.mp hdvd))]
    omega
  have hfill := cbrFrames_fill ((stop - pos) / (k + 1)) k pos (hend.trans_le hstop)
  rwa [hend] at hfill

theorem parseInterleaved_fills {k : Nat} (hpos : pos ≤ stop) (hstop : stop ≤ 65535)
    (hok : (parseInterleaved strict pkt stop k pos).2 = none) :
    Fills true pos stop (parseInterleaved strict pkt stop k pos).1
      ∧ (parseInterleaved strict pkt stop k pos).1 ≠ [] := by
  induction k generalizing pos with
  | zero =>
    rw [parseInterleaved, emitAll_ok hok]
    exact ⟨.last true hpos hstop, by simp⟩
  | succ k ih =>
    cases hlen : lenDecode pkt pos stop with
    | none => simp [parseInterleaved_missing hlen] at hok
    | some r =>
      by_cases hpast : stop < pos + r.2 + r.1
      · simp [parseInterleaved_runsPast hlen hpast] at hok
      · have hfits := Nat.not_lt.mp hpast
        rw [parseInterleaved_fits hlen hfits] at hok ⊢
        obtain ⟨hfill, hne⟩ := ih hfits hok
        exact ⟨.cons (lenDecode_width hlen) hne hstop hfill, by simp⟩

theorem readLengths_some {k : Nat} {lens : List Nat} {pos' : Nat}
    (h : readLengths pkt stop k pos = some (lens, pos')) :
    pos' = pos + (lens.map (fieldWidth true)).sum := by
  induction k generalizing pos lens with
  | zero =>
    obtain ⟨rfl, rfl⟩ : [] = lens ∧ pos = pos' := by simpa [readLengths] using h
    simp
  | succ k ih =>
    cases hlen : lenDecode pkt pos stop with
    | none => simp [readLengths, hlen] at h
    | some r =>
      obtain ⟨v, n⟩ := r
      simp only [readLengths, hlen, Option.map_eq_some_iff, Prod.exists, Prod.mk.injEq] at h
      obtain ⟨lens', _, hrest, rfl, rfl⟩ := h
      rw [ih hrest, lenDecode_width hlen, List.map_cons, List.sum_cons, Nat.add_assoc]

theorem groupedFrames_fill {lens : List Nat} (hfits : pos + lens.sum ≤ stop) (hstop : stop ≤ 65535) :
    Fills false pos stop (descs (groupedFrames stop lens pos))
      ∧ (descs (groupedFrames stop lens pos)).dropLast.map (fun d => d.len.toNat) = lens := by
  induction lens generalizing pos with
  | nil => exact ⟨.last false hfits hstop, rfl⟩
  | cons v rest ih =>
    rw [List.sum_cons] at hfits
    have hne : descs (groupedFrames stop rest (pos + v)) ≠ [] := by
      cases rest <;> simp [descs, groupedFrames]
    obtain ⟨hfill, hlens⟩ := ih (pos := pos + v) (by omega)
    refine ⟨.cons (w := 0) rfl hne hstop hfill, ?_⟩
    have hv : (word16 v).toNat = v := toNat_word16 (by omega)
    change ((⟨word16 pos, word16 v⟩ :: descs (groupedFrames stop rest (pos + v))).dropLast.map _) = _
    rw [List.dropLast_cons_of_ne_nil hne, List.map_cons, hlens, hv]

theorem parseGrouped_fills {m : Nat} (hstop : stop ≤ 65535) (hok : (parseGrouped strict pkt stop m pos).2 = none) :
    Fills true pos stop (parseGrouped strict pkt stop m pos).1 := by
  unfold parseGrouped at hok ⊢
  cases hlens : readLengths pkt stop (m - 1) pos with
  | none => simp [hlens] at hok
  | some r =>
    obtain ⟨lens, pos'⟩ := r
    simp only [hlens] at hok ⊢
    split at hok
    · simp at hok
    rename_i hfits
    rw [if_neg hfits, emitAll_ok hok]
    have hpos := readLengths_some hlens
    obtain ⟨hfill, hframes⟩ := groupedFrames_fill (Nat.not_lt.mp hfits) hstop
    refine hfill.behind_fields ?_
    change pos' = pos + ((descs (groupedFrames stop lens pos')).dropLast.map
      (fieldWidth true ∘ fun d => d.len.toNat)).sum
    rw [← List.map_map, hframes, hpos]

theorem parseC3Frames_fills {layout : VbrLayout} {vbr : Bool} {m : Nat} (hm : m ≠ 0) (hpos : pos ≤ stop)
    (hstop : stop ≤ 65535) (hok : (parseC3Frames layout strict vbr m pkt pos stop).2 = none) :
    Fills vbr pos stop (parseC3Frames layout strict vbr m pkt pos stop).1 := by
  unfold parseC3Frames at hok ⊢
  rw [if_neg hm] at hok ⊢
  cases vbr with
  | false => exact parseCbr_fills hm hpos hstop hok
  | true =>
    cases layout with
    | interleaved => exact (parseInterleaved_fills hpos hstop hok).1
    | grouped => exact parseGrouped_fills hstop hok

theorem parseCode1_fills {len : Nat} (hlen : len ≤ 65535) (hok : (parseCode1 strict len).2 = none) :
    Fills false 1 len (parseCode1 strict len).1 := by
  unfold parseCode1 at hok ⊢
  split at hok
  · simp at hok
  rename_i hodd
  rw [if_neg hodd, emitAll_ok hok]
  have hfill := cbrFrames_fill ((len - 1) / 2) 1 1 (by omega)
  rwa [show 1 + (1 + 1) * ((len - 1) / 2) = len by omega] at hfill

theorem parseCode2_fills (hlen : pkt.length ≤ 65535) (hok : (parseCode2 strict pkt).2 = none) :
    Fills true 1 pkt.length (parseCode2 strict pkt).1 := by
  unfold parseCode2 at hok ⊢
  cases hfield : lenDecode pkt 1 pkt.length with
  | none => simp [hfield] at hok
  | some r =>
    obtain ⟨v, n⟩ := r
    simp only [hfield] at hok ⊢
    split at hok
    · simp at hok
    rename_i hfits
    rw [if_neg hfits, emitAll_ok hok]
    have hend := (lenDecode_some hfield).1
    exact .cons (lenDecode_width hfield) (by simp) hlen (.last true (by omega) hlen)

end Frames

/-! ### The whole packet -/

/-- The round trip of R175 for the result `r` of a packet of `len` bytes. -/
def RoundTrip (len : Nat) (r : ParseResult) : Prop :=
  len = 1 + (if r.c3Info.valid then 1 else 0) + r.padInfo.hdrLen.toNat
      + (if r.tocInfo.code = 2 ∨ r.c3Info.vbr = true
          then (r.frames.dropLast.map fun d => if d.len.toNat ≤ 251 then 1 else 2).sum else 0)
      + (r.frames.map fun d => d.len.toNat).sum + r.padData.len.toNat
    ∧ (∀ d ∈ r.frames, 1 ≤ d.off.toNat ∧ d.off.toNat + d.len.toNat ≤ len - r.padData.len.toNat)
    ∧ r.frames.Pairwise fun d e => d.off.toNat + d.len.toNat ≤ e.off.toNat

/-- Frames that fill the region behind TOC byte, header and chain give the round trip. -/
theorem Fills.roundTrip {fields : Bool} {pos stop len : Nat} {r : ParseResult} (h : Fills fields pos stop r.frames)
    (hfields : fields = true ↔ r.tocInfo.code = 2 ∨ r.c3Info.vbr = true)
    (hpos : pos = 1 + (if r.c3Info.valid then 1 else 0) + r.padInfo.hdrLen.toNat)
    (hstop : len = stop + r.padData.len.toNat) : RoundTrip len r := by
  obtain ⟨htotal, hinside, hrising⟩ := h
  refine ⟨?_, fun d hd => ?_, hrising⟩
  · cases fields with
    | true =>
      rw [if_pos (hfields.mp rfl)]
      simp only [fieldWidth, if_true] at htotal
      omega
    | false =>
      rw [if_neg (mt hfields.mpr (by decide))]
      rw [sum_fieldWidth_false] at htotal
      omega
  · have := hinside d hd
    omega

theorem roundTrip_parseCode3 {layout : VbrLayout} {strict : Bool} {t h : Byte} {rest : List Byte} {toc : TocInfo}
    (hlen : (t :: h :: rest).length ≤ 65535) (hcode : toc.code = 3) (hm : (c3InfoOf h).m ≠ 0)
    (hok : (parseCode3 layout strict (t :: h :: rest) toc).outcome = none) :
    RoundTrip (t :: h :: rest).length (parseCode3 layout strict (t :: h :: rest) toc) := by
  have hm : (c3InfoOf h).m.toNat ≠ 0 := fun h0 => hm (BitVec.eq_of_toNat_eq h0)
  have hfields : (c3InfoOf h).vbr = true ↔ toc.code = 2 ∨ (c3InfoOf h).vbr = true := by simp [hcode]
  obtain ⟨e, he⟩ | ⟨hacc, hpad⟩ | ⟨hdr, data, hacc, hpad, hchain, hfits⟩ := parseCode3_cases strict t h rest toc
  · simp [he, noPadding] at hok
  · rw [parseCode3_unpadded hacc hpad] at hok ⊢
    exact (parseC3Frames_fills hm (by simp) hlen hok).roundTrip (r := noPadding ..) hfields rfl rfl
  · rw [parseCode3_padded hacc hpad hchain] at hok ⊢
    have hhdr : (word16 hdr).toNat = hdr := toNat_word16 (by omega)
    have hdata : (word16 data).toNat = data := toNat_word16 (by omega)
    refine (parseC3Frames_fills hm (by omega) (by omega) hok).roundTrip (r := paddedResult ..) hfields ?_ ?_
    · simp [paddedResult, hhdr, c3InfoOf]
    · simp only [paddedResult, hdata]
      omega

/-- Settles O58: the frames of each Code fill their region. -/
theorem roundTripOfLengths : Obligations.RoundTripOfLengths := by
  intro layout strict pkt hlen hok
  change ((parse layout strict pkt).c3Info.valid = true → (parse layout strict pkt).c3Info.m ≠ 0) →
    RoundTrip pkt.length (parse layout strict pkt)
  intro hm
  unfold validPacket at hok
  cases pkt with
  | nil => simp [parse, noPadding] at hok
  | cons b rest =>
    obtain hc | hc | hc | hc := code_cases (tocInfoOf b).code
    · rw [parse_code0 hc] at hok ⊢
      rw [emitAll_ok hok]
      exact (Fills.last (pos := 1) false (by simp) hlen).roundTrip (r := noPadding ..)
        (by simp [noPadding, hc, C3Info.zero]) rfl rfl
    · rw [parse_code1 hc] at hok ⊢
      exact (parseCode1_fills hlen hok).roundTrip (r := noPadding ..) (by simp [noPadding, hc, C3Info.zero]) rfl rfl
    · rw [parse_code2 hc] at hok ⊢
      exact (parseCode2_fills hlen hok).roundTrip (r := noPadding ..) (by simp [noPadding, hc]) rfl rfl
    · rw [parse_code3 hc] at hok hm ⊢
      cases rest with
      | nil => simp [parseCode3, noPadding] at hok
      | cons h rest =>
        rw [parseCode3_c3Info] at hm
        exact roundTrip_parseCode3 hlen hc (hm rfl) hok

end Sys2Proof.Machine

/-! The undisturbed runs of CODE2 and of the Code 3 frames against `parse` (R164, R168 to R171, R233). -/

namespace Sys2Proof.Machine

/-! ### The running parse's packet -/

/-- The block parses `pkt`, and nothing holds it up. -/
def Parsing (pkt : List Byte) (s : State) : Prop :=
  Undisturbed s ∧ s.dp.len.toNat = pkt.length ∧ ∀ i, i < pkt.length → Memory.read s.pktBuf i = pkt[i]?

theorem Parsing.read {pkt : List Byte} {s : State} (h : Parsing pkt s) {i : Nat} (hi : i < pkt.length) :
    Memory.read s.pktBuf i = some (pkt.getD i 0) := by
  obtain ⟨-, -, hcells⟩ := h
  rw [hcells i hi, List.getD_eq_getElem _ _ hi, List.getElem?_eq_getElem hi]

section LenField

variable {pkt : List Byte} {f : Fsm} {s : State} {p stop : Nat} (hparse : Parsing pkt s) (hw : Working f s)
  (haw : awaitedField s = some (.len, p, stop)) (hstop : stop ≤ pkt.length)
include hparse hw haw hstop

/-- The machine's LEN_DECODE fails where `lenDecode` does. -/
theorem step_of_lenDecode_none (h : lenDecode pkt p stop = none) : step s = .next (raise .packetTooSmall s) := by
  refine step_of_len_missing hw hparse.1.2.2 haw ?_
  by_cases hp : stop ≤ p
  · exact .inl hp
  simp only [lenDecode, if_neg hp] at h
  by_cases hb : (pkt.getD p 0).toNat ≤ 251
  · rw [if_pos hb] at h
    cases h
  rw [if_neg hb] at h
  by_cases hend : stop ≤ p + 1
  · exact .inr ⟨by omega, _, hparse.read (by omega), by omega⟩
  · rw [if_neg hend] at h
    cases h

/-- The machine runs the row of the length field that `lenDecode` reads. -/
theorem step_of_lenDecode_some {v n : Nat} (h : lenDecode pkt p stop = some (v, n)) :
    ∃ i, lenRowValue i = some (v, n) ∧ step s = exec i s := by
  have hrun {i : Instr} (hfield : lenField p stop s = .run i s) : step s = exec i s :=
    step_of_fsmWork_run hw hparse.1.2.2 ((fsmWork_of_awaits_len haw).trans hfield)
  by_cases hp : stop ≤ p
  · simp [lenDecode, hp] at h
  have h0 := hparse.read (i := p) (by omega)
  simp only [lenDecode, if_neg hp] at h
  by_cases hb : (pkt.getD p 0).toNat ≤ 251
  · rw [if_pos hb] at h
    exact ⟨.len1 (pkt.getD p 0), h, hrun (lenField_oneByte (by omega) h0 hb)⟩
  rw [if_neg hb] at h
  by_cases hend : stop ≤ p + 1
  · simp [hend] at h
  · rw [if_neg hend] at h
    have h1 := hparse.read (i := p + 1) (by omega)
    exact ⟨.len2 (pkt.getD p 0) (pkt.getD (p + 1) 0), h, hrun (lenField_twoBytes (by omega) (by omega) h0 h1)⟩

end LenField

/-- A step that ends the work with an error. -/
theorem RunsTo.step_raise {s s' : State} {e : ParseError} (hstep : Machine.step s = .next (Machine.raise e s'))
    (hw : s'.port = none ∧ s'.rst = false) (hu : Undisturbed s') (hsink : s'.sink = s.sink) (hregs : s'.regs = s.regs)
    (hnf : s'.dp.nf = s.dp.nf) : RunsTo s ([], some e) :=
  .step hstep hsink hregs hnf (.of_sFin (s := Machine.raise e s') ⟨rfl, hw⟩ hu)

/-! ### CODE2 -/

theorem code2_runsTo {pkt : List Byte} {s : State} (hparse : Parsing pkt s) (hw : Working .sC2 s)
    (hidx : s.dp.fidx = 0) : RunsTo s (parseCode2 s.dp.strict pkt) := by
  obtain ⟨hu, hlen, -⟩ := id hparse
  have haw : awaitedField s = some (.len, 1, pkt.length) := hlen ▸ awaitedField_sC2 hw hidx
  have hpkt := s.dp.len.isLt
  unfold parseCode2
  cases hfield : lenDecode pkt 1 pkt.length with
  | none => exact .raise hw hu (step_of_lenDecode_none hparse hw haw le_rfl hfield)
  | some r =>
    obtain ⟨v, n⟩ := r
    obtain ⟨hend, hv, -⟩ := lenDecode_some hfield
    obtain ⟨i, hval, hstep⟩ := step_of_lenDecode_some hparse hw haw le_rfl hfield
    rw [exec_lenRow_of_sC2 hval (expectsLen_sC2_of_first hw hidx) hw] at hstep
    obtain ⟨hover, he⟩ | ⟨hfits, he⟩ := lenCode2_cases v n s <;> rw [he] at hstep <;> simp only
    · rw [if_pos (hlen ▸ hover)]
      exact .step_raise hstep hw.2 hu rfl rfl rfl
    · rw [if_neg (by omega), emitAll_explicit hv, ← hlen]
      rw [emit_of_fits (.inr hv)] at hstep
      exact .step hstep rfl rfl rfl (code2_presented_runsTo hw hidx hu (by omega))

/-! ### The frames of Code 3 where no length is due -/

section C3Frames

variable {s : State} (hw : Working .sC3f s) (hu : Undisturbed s) (hm : s.dp.m ≠ 0)
include hw hu

theorem step_c3Frame (hexp : s.expectsLen = false) : step s = .next (c3Frame s) := by
  rw [step_of_fsmWork_run hw hu.2.2 (fsmWork_of_sC3f hw.1 hexp), State.c3Current,
    exec_c3Row_of_sC3f hw (c3Is_current s) hexp]

include hm

theorem step_cbrFrame (hv : s.dp.vbr = false) : step s = .next (cbrFrame s) := by
  rw [step_c3Frame hw hu (expectsLen_eq_false_of_sC3f hw.1 fun h => by simp [hv] at h), c3Frame_of_cbr hm hv]

end C3Frames

theorem sent_pos {off n pos' : Nat} {s : State} (h : pos' < 65536) : (sent off n pos' s).dp.pos.toNat = pos' :=
  toNat_word16 h

theorem sent_fidx {off n pos' : Nat} {s : State} (h : s.dp.fidx.toNat < 63) :
    (sent off n pos' s).dp.fidx.toNat = s.dp.fidx.toNat + 1 := toNat_fidx_succ h

/-- CODE3_CBR with `k` frames of `f` bytes to come. -/
theorem cbr_runsTo {k f : Nat} {s : State} (hw : Working .sC3f s) (hu : Undisturbed s) (hm : s.dp.m ≠ 0)
    (hv : s.dp.vbr = false) (hk : s.dp.fidx.toNat + k = s.dp.m.toNat) (hdvd : cbrRemainder s % s.dp.m.toNat = 0)
    (hf : cbrRemainder s / s.dp.m.toNat = f) (hfits : s.dp.pos.toNat + k * f < 65536) :
    RunsTo s (emitAll s.dp.strict (cbrFrames f k s.dp.pos.toNat)) := by
  have hstep := step_cbrFrame hw hu hm hv
  have hmlt := s.dp.m.isLt
  induction k generalizing s with
  | zero =>
    have hdone : s.dp.fidx = s.dp.m := BitVec.eq_of_toNat_eq hk
    exact .complete hw hu (hstep.trans (congrArg _ (if_pos hdone)))
  | succ k ih =>
    have hidx : s.dp.fidx ≠ s.dp.m := fun h => by
      rw [h] at hk
      omega
    have hframe : cbrFrame s = emit s.dp.pos.toNat f (s.dp.pos.toNat + f) s := by
      rw [cbrFrame, if_neg hidx, if_neg (not_not_intro hdvd), hf]
    rw [Nat.succ_mul] at hfits
    refine .emitAll_cons hw hu (hstep.trans (congrArg _ hframe)) ?_
    have hnext := ih (s := sent s.dp.pos.toNat f (s.dp.pos.toNat + f) s) (hw.sent ..) hu hm hv
    rw [sent_fidx (by omega), sent_pos (by omega)] at hnext
    exact hnext (by change s.dp.fidx.toNat + 1 + k = s.dp.m.toNat; omega) hdvd hf (by omega)
      (step_cbrFrame (hw.sent ..) hu hm hv) hmlt

/-! ### The last frame of a VBR packet -/

/-- A frame sent makes no length due. -/
theorem expectsLen_sent {off n pos' : Nat} {s : State} (hf : s.fsm = .sC3f) (hidx : s.dp.fidx.toNat < 63)
    (hexp : s.expectsLen = false) : (sent off n pos' s).expectsLen = false := by
  refine Bool.eq_false_iff.mpr fun hdue => Bool.eq_false_iff.mp hexp ?_
  obtain ⟨hv, hlt⟩ := (expectsLen_of_sC3f (s := sent off n pos' s) hf).mp hdue
  refine (expectsLen_of_sC3f hf).mpr ⟨hv, ?_⟩
  change (match s.params.layout with
    | .interleaved => (sent off n pos' s).dp.fidx.toNat + 1 < s.dp.m.toNat
    | .grouped => s.dp.lens.length + 1 < s.dp.m.toNat) at hlt
  rw [sent_fidx hidx] at hlt
  cases hl : s.params.layout <;> simp only [hl] at hlt ⊢ <;> omega

section LastFrame

variable {s : State} (hw : Working .sC3f s) (hu : Undisturbed s) (hm : s.dp.m ≠ 0) (hv : s.dp.vbr = true)
include hw hu hm hv

/-- No length is due, and every frame was sent (R170, R171). -/
theorem step_complete (hexp : s.expectsLen = false) (hidx : s.dp.fidx = s.dp.m) :
    step s = .next (complete s) := by
  rw [step_c3Frame hw hu hexp]
  refine congrArg _ ?_
  cases hl : s.params.layout with
  | interleaved => rw [c3Frame_of_interleaved hm hv hl, lastFrame_of_done hidx]
  | grouped =>
    have hfirst : s.dp.fidx ≠ 0 := hidx ▸ hm
    rw [c3Frame_of_grouped hm hv hl, groupedFrame, if_neg fun h => hfirst h.1, if_neg (by rw [hidx]; omega),
      lastFrame_of_done hidx]

theorem last_runsTo (hexp : s.expectsLen = false) (hlast : c3Frame s = lastFrame s)
    (hidx : s.dp.fidx.toNat + 1 = s.dp.m.toNat) :
    RunsTo s (emitAll s.dp.strict [(s.dp.pos.toNat, s.dp.regionEnd.toNat - s.dp.pos.toNat)]) := by
  have hmlt := s.dp.m.isLt
  refine .emitAll_cons hw hu
    ((step_c3Frame hw hu hexp).trans (congrArg _ (hlast.trans (lastFrame_of_last hidx)))) ?_
  have hdone : (sent s.dp.pos.toNat (s.dp.regionEnd.toNat - s.dp.pos.toNat) s.dp.pos.toNat s).dp.fidx = s.dp.m :=
    BitVec.eq_of_toNat_eq ((sent_fidx (by omega)).trans hidx)
  exact .complete (hw.sent ..) hu
    (step_complete (hw.sent ..) hu hm hv (expectsLen_sent hw.1 (by omega) hexp) hdone)

end LastFrame

/-! ### CODE3_VBR_INTERLEAVED -/

/-- The interleaved layout with `k` explicit frames to come. -/
theorem interleaved_runsTo {pkt : List Byte} {k : Nat} {s : State} (hparse : Parsing pkt s) (hw : Working .sC3f s)
    (hl : s.params.layout = .interleaved) (hv : s.dp.vbr = true) (hk : s.dp.fidx.toNat + 1 + k = s.dp.m.toNat)
    (hend : s.dp.regionEnd.toNat ≤ pkt.length) :
    RunsTo s (parseInterleaved s.dp.strict pkt s.dp.regionEnd.toNat k s.dp.pos.toNat) := by
  have hmlt := s.dp.m.isLt
  have hregion := s.dp.regionEnd.isLt
  induction k generalizing s with
  | zero =>
    have hm : s.dp.m ≠ 0 := fun h => by simp [h] at hk
    have hexp : s.expectsLen = false := expectsLen_eq_false_of_sC3f hw.1 fun _ => by simp only [hl]; omega
    exact last_runsTo hw hparse.1 hm hv hexp (c3Frame_of_interleaved hm hv hl) hk
  | succ k ih =>
    have hexp : s.expectsLen = true :=
      (expectsLen_of_sC3f hw.1).mpr ⟨hv, by simp only [hl]; omega⟩
    have haw := awaitedField_sC3f hw hexp
    cases hfield : lenDecode pkt s.dp.pos.toNat s.dp.regionEnd.toNat with
    | none =>
      rw [parseInterleaved_missing hfield]
      exact .raise hw hparse.1 (step_of_lenDecode_none hparse hw haw hend hfield)
    | some r =>
      obtain ⟨v, n⟩ := r
      obtain ⟨-, hv', -⟩ := lenDecode_some hfield
      obtain ⟨i, hval, hstep⟩ := step_of_lenDecode_some hparse hw haw hend hfield
      rw [exec_lenRow_of_interleaved hval hexp hw hl] at hstep
      obtain ⟨hpast, he⟩ | ⟨hfits, he⟩ := lenInterleaved_cases v n s <;> rw [he] at hstep
      · rw [parseInterleaved_runsPast hfield hpast]
        exact .step_raise hstep hw.2 hparse.1 rfl rfl rfl
      · rw [parseInterleaved_fits hfield hfits]
        rw [emit_of_fits (.inr hv')] at hstep
        have hwt : Working .sC3f (withPos (s.dp.pos.toNat + n) s) := hw
        have hnext := ih (s := sent (s.dp.pos.toNat + n) v (s.dp.pos.toNat + n + v) (withPos (s.dp.pos.toNat + n) s))
          hparse (hwt.sent ..) hl hv
        rw [sent_fidx (s := withPos (s.dp.pos.toNat + n) s) (show s.dp.fidx.toNat < 63 by omega),
          sent_pos (by omega)] at hnext
        refine .step hstep rfl rfl rfl
          (.presented (s := withPos (s.dp.pos.toNat + n) s) hparse.1 (hnext ?_ hend hmlt hregion))
        change s.dp.fidx.toNat + 1 + 1 + k = s.dp.m.toNat
        omega

/-! ### CODE3_VBR_GROUPED -/

/-- The lengths read so far are `ls`, and their sum is exact (log 21). -/
def HoldsLens (ls : List Nat) (s : State) : Prop :=
  s.dp.lens.map BitVec.toNat = ls ∧ s.dp.lsum.toNat = ls.sum ∧ ∀ n ∈ ls, n ≤ 1275

theorem HoldsLens.length {ls : List Nat} {s : State} (h : HoldsLens ls s) : s.dp.lens.length = ls.length := by
  rw [← h.1, List.length_map]

/-- One more length is read. -/
theorem HoldsLens.lenGrouped {ls : List Nat} {s : State} (h : HoldsLens ls s) {v : Nat} (hv : v ≤ 1275)
    (hcount : ls.length ≤ 62) (n : Nat) : HoldsLens (ls ++ [v]) (lenGrouped v n s) := by
  obtain ⟨hlens, hsum, hle⟩ := h
  have hbound : ls.sum ≤ ls.length * 1275 := by simpa using List.sum_le_card_nsmul ls 1275 hle
  refine ⟨?_, ?_, fun m hm => ?_⟩
  · change (s.dp.lens ++ [BitVec.ofNat 11 v]).map BitVec.toNat = _
    rw [List.map_append, hlens, List.map_singleton, toNat_ofNat_of_lt (by omega)]
  · change (word18 (s.dp.lsum.toNat + v)).toNat = _
    rw [toNat_ofNat_of_lt (by omega), hsum, List.sum_append, List.sum_singleton]
  · obtain hm | rfl := by simpa using hm
    · exact hle m hm
    · exact hv

theorem HoldsLens.getD {ls : List Nat} {s : State} (h : HoldsLens ls s) {i : Nat} (hi : i < ls.length) :
    (s.dp.lens.getD i 0).toNat = ls[i] := by
  obtain ⟨rfl, -⟩ := h
  rw [List.length_map] at hi
  rw [List.getD_eq_getElem _ _ hi, List.getElem_map]

/-- The lengths are all read, and those not yet sent fit the region. -/
def GroupedReady (ls : List Nat) (s : State) : Prop :=
  s.params.layout = .grouped ∧ s.dp.vbr = true ∧ HoldsLens ls s ∧ ls.length + 1 = s.dp.m.toNat
    ∧ s.dp.pos.toNat + (ls.drop s.dp.fidx.toNat).sum ≤ s.dp.regionEnd.toNat

section Grouped

variable {ls : List Nat} {s : State} (hf : s.fsm = .sC3f) (h : GroupedReady ls s)

include h in
theorem GroupedReady.m_ne_zero : s.dp.m ≠ 0 := fun h0 => by
  obtain ⟨-, -, -, hfull, -⟩ := h
  simp [h0] at hfull

include hf h in
theorem GroupedReady.expectsLen : s.expectsLen = false := by
  obtain ⟨hl, -, hlens, hfull, -⟩ := h
  refine expectsLen_eq_false_of_sC3f hf fun _ => ?_
  simp only [hl, hlens.length]
  omega

include h in
/-- The sum check of the first frame passes (R171). -/
theorem GroupedReady.c3Frame : c3Frame s = if s.dp.fidx.toNat + 1 < s.dp.m.toNat then
    emit s.dp.pos.toNat (s.dp.lens.getD s.dp.fidx.toNat 0).toNat
      (s.dp.pos.toNat + (s.dp.lens.getD s.dp.fidx.toNat 0).toNat) s
    else lastFrame s := by
  have hm := h.m_ne_zero
  obtain ⟨hl, hv, ⟨-, hsum, -⟩, -, hfits⟩ := h
  rw [c3Frame_of_grouped hm hv hl]
  refine if_neg ?_
  rintro ⟨h0, hover⟩
  rw [hsum] at hover
  rw [h0] at hfits
  exact absurd hfits (Nat.not_le.mpr hover)

end Grouped

/-- The frames of the grouped layout, `rest` being the explicit lengths not yet sent. -/
theorem groupedFrames_runsTo {ls rest : List Nat} {s : State} (hw : Working .sC3f s) (hu : Undisturbed s)
    (hready : GroupedReady ls s) (hidx : s.dp.fidx.toNat ≤ ls.length) (hrest : ls.drop s.dp.fidx.toNat = rest) :
    RunsTo s (emitAll s.dp.strict (groupedFrames s.dp.regionEnd.toNat rest s.dp.pos.toNat)) := by
  have hmlt := s.dp.m.isLt
  have hregion := s.dp.regionEnd.isLt
  induction rest generalizing s with
  | nil =>
    obtain ⟨-, hv, -, hfull, -⟩ := id hready
    have hdone := List.drop_eq_nil_iff.mp hrest
    refine last_runsTo hw hu hready.m_ne_zero hv (hready.expectsLen hw.1) ?_ (by omega)
    rw [hready.c3Frame, if_neg (by omega)]
  | cons v rest ih =>
    obtain ⟨hl, hv, hlens, hfull, hfits⟩ := id hready
    have hlt : s.dp.fidx.toNat < ls.length := by
      by_contra hge
      rw [List.drop_eq_nil_of_le (Nat.not_lt.mp hge)] at hrest
      cases hrest
    obtain ⟨hget, htail⟩ : ls[s.dp.fidx.toNat] = v ∧ ls.drop (s.dp.fidx.toNat + 1) = rest := by
      rwa [List.drop_eq_getElem_cons hlt, List.cons.injEq] at hrest
    rw [hrest, List.sum_cons] at hfits
    have hframe := hready.c3Frame
    rw [if_pos (by omega), hlens.getD hlt, hget] at hframe
    refine .emitAll_cons hw hu ((step_c3Frame hw hu (hready.expectsLen hw.1)).trans (congrArg _ hframe)) ?_
    have hfidx : (sent s.dp.pos.toNat v (s.dp.pos.toNat + v) s).dp.fidx.toNat = s.dp.fidx.toNat + 1 :=
      sent_fidx (by omega)
    have hpos : (sent s.dp.pos.toNat v (s.dp.pos.toNat + v) s).dp.pos.toNat = s.dp.pos.toNat + v := sent_pos (by omega)
    have hnext := ih (s := sent s.dp.pos.toNat v (s.dp.pos.toNat + v) s) (hw.sent ..) hu ?_ (by omega) (hfidx ▸ htail)
      hmlt hregion
    · rwa [hpos] at hnext
    · refine ⟨hl, hv, hlens, hfull, ?_⟩
      rw [hfidx, hpos, htail]
      exact (Nat.add_assoc ..).trans_le hfits

/-- What CODE3_VBR_GROUPED comes to when `ls` was read and `r` is what the other length fields give (R171). -/
def groupedAfter (strict : Bool) (stop : Nat) (ls : List Nat) : Option (List Nat × Nat) → Emitted
  | none => ([], some .packetTooSmall)
  | some (lens, pos') =>
    if stop < pos' + (ls ++ lens).sum then ([], some .packetTooSmall)
    else emitAll strict (groupedFrames stop (ls ++ lens) pos')

theorem groupedAfter_read (strict : Bool) (stop : Nat) (ls : List Nat) (v : Nat) (r : Option (List Nat × Nat)) :
    groupedAfter strict stop ls (r.map fun r => (v :: r.1, r.2)) = groupedAfter strict stop (ls ++ [v]) r := by
  cases r <;> simp [groupedAfter]

/-- The grouped layout from its length fields on, `ls` being read and `k` to come. -/
theorem grouped_runsTo {pkt : List Byte} {k : Nat} {ls : List Nat} {s : State} (hparse : Parsing pkt s)
    (hw : Working .sC3f s) (hl : s.params.layout = .grouped) (hv : s.dp.vbr = true) (hlens : HoldsLens ls s)
    (hk : ls.length + 1 + k = s.dp.m.toNat) (hidx : s.dp.fidx = 0) (hend : s.dp.regionEnd.toNat ≤ pkt.length) :
    RunsTo s (groupedAfter s.dp.strict s.dp.regionEnd.toNat ls
      (readLengths pkt s.dp.regionEnd.toNat k s.dp.pos.toNat)) := by
  have hmlt := s.dp.m.isLt
  induction k generalizing s ls with
  | zero =>
    rw [readLengths, groupedAfter, List.append_nil]
    split
    · rename_i hover
      have hm : s.dp.m ≠ 0 := fun h => by simp [h] at hk
      have hexp : s.expectsLen = false :=
        expectsLen_eq_false_of_sC3f hw.1 fun _ => by simp only [hl, hlens.length]; omega
      refine .raise hw hparse.1 ((step_c3Frame hw hparse.1 hexp).trans (congrArg _ ?_))
      rw [c3Frame_of_grouped hm hv hl, groupedFrame, hlens.2.1, if_pos ⟨hidx, hover⟩]
    · rename_i hfits
      refine groupedFrames_runsTo hw hparse.1 ⟨hl, hv, hlens, hk, ?_⟩ (by simp [hidx]) (by simp [hidx])
      rw [hidx]
      exact Nat.not_lt.mp hfits
  | succ k ih =>
    have hexp : s.expectsLen = true :=
      (expectsLen_of_sC3f hw.1).mpr ⟨hv, by simp only [hl, hlens.length]; omega⟩
    have haw := awaitedField_sC3f hw hexp
    rw [readLengths]
    cases hfield : lenDecode pkt s.dp.pos.toNat s.dp.regionEnd.toNat with
    | none => exact .raise hw hparse.1 (step_of_lenDecode_none hparse hw haw hend hfield)
    | some r =>
      obtain ⟨v, n⟩ := r
      obtain ⟨hfit, hv', -⟩ := lenDecode_some hfield
      obtain ⟨i, hval, hstep⟩ := step_of_lenDecode_some hparse hw haw hend hfield
      rw [exec_lenRow_of_grouped hval hexp hw hl] at hstep
      have hpos : (lenGrouped v n s).dp.pos.toNat = s.dp.pos.toNat + n := toNat_word16_le hfit
      have hcount : (ls ++ [v]).length + 1 + k = s.dp.m.toNat := by
        rw [List.length_append, List.length_singleton]
        omega
      have hnext := ih (s := lenGrouped v n s) hparse hw hl hv (hlens.lenGrouped hv' (by omega) n) hcount hidx hend hmlt
      rw [hpos] at hnext
      rw [groupedAfter_read]
      exact .step hstep rfl rfl rfl hnext

/-! ### All frames of a Code 3 packet -/

/-- The parse has sent nothing and read no length. -/
def NoneSent (s : State) : Prop :=
  s.dp.fidx = 0 ∧ s.dp.nf = 0 ∧ s.regs.numFrames = 0 ∧ s.dp.lens = [] ∧ s.dp.lsum = 0

theorem c3Frames_runsTo {pkt : List Byte} {s : State} (hparse : Parsing pkt s) (hw : Working .sC3f s)
    (hnone : NoneSent s) (hpos : s.dp.pos.toNat = 2 + s.dp.padHdr.toNat) (hlow : s.dp.pos.toNat ≤ s.dp.regionEnd.toNat)
    (hend : s.dp.regionEnd.toNat ≤ pkt.length) :
    RunsTo s (parseC3Frames s.params.layout s.dp.strict s.dp.vbr s.dp.m.toNat pkt s.dp.pos.toNat
      s.dp.regionEnd.toNat) := by
  obtain ⟨hidx, -, -, hlens, hsum⟩ := hnone
  have hu := hparse.1
  have hregion := s.dp.regionEnd.isLt
  unfold parseC3Frames
  by_cases hm : s.dp.m = 0
  · have hexp : s.expectsLen = false := expectsLen_eq_false_of_sC3f hw.1 fun _ => by
      cases s.params.layout <;> simp [hm]
    rw [if_pos (by simp [hm])]
    exact .complete hw hu ((step_c3Frame hw hu hexp).trans (congrArg _ (if_pos hm)))
  have hm' : s.dp.m.toNat ≠ 0 := fun h => hm (BitVec.eq_of_toNat_eq h)
  have hidx' : s.dp.fidx.toNat = 0 := by simp [hidx]
  rw [if_neg hm']
  cases hv : s.dp.vbr with
  | false =>
    have hrem : cbrRemainder s = s.dp.regionEnd.toNat - s.dp.pos.toNat := by rw [cbrRemainder, hpos]
    rw [if_pos rfl, parseCbr, ← hrem]
    split
    · rename_i hndvd
      have hfirst : s.dp.fidx ≠ s.dp.m := hidx ▸ Ne.symm hm
      exact .raise hw hu ((step_cbrFrame hw hu hm hv).trans (congrArg _ ((if_neg hfirst).trans (if_pos hndvd))))
    · rename_i hdvd
      have hdvd := not_not.mp hdvd
      have hall : s.dp.m.toNat * (cbrRemainder s / s.dp.m.toNat) = cbrRemainder s :=
        Nat.mul_div_cancel' (Nat.dvd_of_mod_eq_zero hdvd)
      exact cbr_runsTo hw hu hm hv (by omega) hdvd rfl (by omega)
  | true =>
    rw [if_neg (by decide)]
    cases hl : s.params.layout with
    | interleaved => exact interleaved_runsTo hparse hw hl hv (by omega) hend
    | grouped =>
      have hheld : HoldsLens [] s := ⟨by rw [hlens]; rfl, by rw [hsum]; rfl, by simp⟩
      exact grouped_runsTo hparse hw hl hv hheld (by simp; omega) hidx hend

end Sys2Proof.Machine

/-! The FSM's run of a whole packet against `parse` (R233). -/

namespace Sys2Proof.Machine

/-! ### How many frames a parse can send -/

theorem emitAll_length_le (strict : Bool) (l : List (Nat × Nat)) : (emitAll strict l).1.length ≤ l.length := by
  induction l with
  | nil => exact le_rfl
  | cons p rest ih =>
    obtain ⟨off, n⟩ := p
    by_cases hbig : strict = true ∧ 1275 < n
    · simp [emitAll_cons_of_tooBig hbig]
    · rw [emitAll_cons_of_fits hbig]
      exact Nat.succ_le_succ ih

section Lengths

variable (strict : Bool) (pkt : List Byte) (stop : Nat)

theorem parseCode1_length_le (len : Nat) : (parseCode1 strict len).1.length ≤ 64 := by
  unfold parseCode1
  split
  · simp
  · exact (emitAll_length_le ..).trans (by simp)

theorem parseCode2_length_le : (parseCode2 strict pkt).1.length ≤ 64 := by
  unfold parseCode2
  split
  · simp
  · split
    · simp
    · exact (emitAll_length_le ..).trans (by simp)

theorem cbrFrames_length (f k pos : Nat) : (cbrFrames f k pos).length = k := by
  induction k generalizing pos with
  | zero => rfl
  | succ k ih => rw [cbrFrames, List.length_cons, ih]

theorem parseInterleaved_length_le (k pos : Nat) : (parseInterleaved strict pkt stop k pos).1.length ≤ k + 1 := by
  induction k generalizing pos with
  | zero => exact emitAll_length_le strict _
  | succ k ih =>
    cases hlen : lenDecode pkt pos stop with
    | none => simp [parseInterleaved_missing hlen]
    | some r =>
      by_cases hpast : stop < pos + r.2 + r.1
      · simp [parseInterleaved_runsPast hlen hpast]
      · rw [parseInterleaved_fits hlen (Nat.not_lt.mp hpast)]
        exact Nat.succ_le_succ (ih _)

theorem readLengths_length {k pos pos' : Nat} {lens : List Nat} (h : readLengths pkt stop k pos = some (lens, pos')) :
    lens.length = k := by
  induction k generalizing pos lens with
  | zero =>
    obtain ⟨rfl, -⟩ : [] = lens ∧ pos = pos' := by simpa [readLengths] using h
    rfl
  | succ k ih =>
    cases hlen : lenDecode pkt pos stop with
    | none => simp [readLengths, hlen] at h
    | some r =>
      simp only [readLengths, hlen, Option.map_eq_some_iff, Prod.exists, Prod.mk.injEq] at h
      obtain ⟨lens', _, hrest, rfl, rfl⟩ := h
      rw [List.length_cons, ih hrest]

theorem groupedFrames_length (lens : List Nat) (pos : Nat) :
    (groupedFrames stop lens pos).length = lens.length + 1 := by
  induction lens generalizing pos with
  | nil => rfl
  | cons n rest ih => rw [groupedFrames, List.length_cons, ih, List.length_cons]

theorem parseGrouped_length_le (m pos : Nat) : (parseGrouped strict pkt stop m pos).1.length ≤ m - 1 + 1 := by
  unfold parseGrouped
  cases hlens : readLengths pkt stop (m - 1) pos with
  | none => simp
  | some r =>
    simp only
    split
    · simp
    · refine (emitAll_length_le ..).trans ?_
      rw [groupedFrames_length, readLengths_length pkt stop hlens]

theorem parseC3Frames_length_le (layout : VbrLayout) (vbr : Bool) {m : Nat} (hm : m < 64) (pos : Nat) :
    (parseC3Frames layout strict vbr m pkt pos stop).1.length ≤ 64 := by
  unfold parseC3Frames
  split
  · simp
  cases vbr with
  | false =>
    rw [if_pos rfl, parseCbr]
    split
    · simp
    · refine (emitAll_length_le ..).trans ?_
      rw [cbrFrames_length]
      exact hm.le
  | true =>
    rw [if_neg (by decide)]
    cases layout with
    | interleaved => exact (parseInterleaved_length_le ..).trans (by omega)
    | grouped => exact (parseGrouped_length_le ..).trans (by omega)

end Lengths

/-! ### Runs to IDLE -/

/-- The block runs from `s` to IDLE with the results of `r`, its descriptors after those that SINK holds in `s`. -/
def ParsesTo (s : State) (r : ParseResult) : Prop := ∃ k t, SafeRun k s t ∧ HoldsResult r s.sink t

theorem safeRun_trans {k l : Nat} {s t u : State} (h : SafeRun k s t) (h' : SafeRun l t u) :
    ∃ n, SafeRun n s u := by
  induction k generalizing s with
  | zero =>
    obtain rfl : s = t := Host.Outcome.next.inj h
    exact ⟨l, h'⟩
  | succ k ih =>
    cases hstep : Machine.step s with
    | next s' =>
      have hcore : Sys2Proof.core.step s = .next s' := hstep
      obtain ⟨n, hn⟩ := ih (s := s') (by simpa only [SafeRun, Host.Core.run, hcore] using h)
      exact ⟨n + 1, safeRun_succ hstep hn⟩
    | fault x =>
      have hcore : Sys2Proof.core.step s = .fault x := hstep
      simp [SafeRun, Host.Core.run, hcore] at h
    | refused x =>
      have hcore : Sys2Proof.core.step s = .refused x := hstep
      simp [SafeRun, Host.Core.run, hcore] at h

theorem ParsesTo.of_safeRun {k : Nat} {s s' : State} {r : ParseResult} (hrun : SafeRun k s s')
    (hsink : s'.sink = s.sink) (h : ParsesTo s' r) : ParsesTo s r := by
  obtain ⟨l, t, hl, ht⟩ := h
  obtain ⟨n, hn⟩ := safeRun_trans hrun hl
  exact ⟨n, t, hn, hsink ▸ ht⟩

theorem ParsesTo.step {s s' : State} {r : ParseResult} (hstep : Machine.step s = .next s')
    (hsink : s'.sink = s.sink) (h : ParsesTo s' r) : ParsesTo s r :=
  .of_safeRun (safeRun_succ hstep (safeRun_zero s')) hsink h

/-- The result that the registers of `s` and the emitted frames make. -/
def resultOf (s : State) (em : Emitted) : ParseResult :=
  ⟨em.1, s.regs.tocInfo, s.regs.c3Info, s.regs.padInfo, s.regs.padData, s.regs.padTotal, em.2⟩

/-- A run to S_FIN ends in IDLE by `finish` (R229). -/
theorem RunsTo.parsesTo {s : State} {em : Emitted} (h : RunsTo s em) (hnone : NoneSent s) (hlen : em.1.length ≤ 64) :
    ParsesTo s (resultOf s em) := by
  obtain ⟨k, t, hrun, hw, hu, hout, hsink, hregs⟩ := h
  obtain ⟨-, hnf, hnum, -, -⟩ := hnone
  obtain ⟨n, hn⟩ := safeRun_trans hrun (safeRun_succ (step_of_sFin hw hu.2.2) (safeRun_zero _))
  have hcount : (countAfter s em.1).toNat = em.1.length := by
    unfold countAfter
    split
    · rename_i hnil
      rw [hnum, hnil]
      rfl
    · rw [hnf]
      exact (congrArg BitVec.toNat (BitVec.zero_add _)).trans (toNat_ofNat_of_lt (by omega))
  refine ⟨n, finish t, hn, rfl, hsink, ?_⟩
  rw [finish_regs, hregs, hout]
  exact ⟨rfl, rfl, hcount, rfl, rfl, rfl, rfl⟩

/-- A parse that ends with an error before any frame. -/
theorem ParsesTo.of_raise {s s' : State} {e : ParseError} (hstep : Machine.step s = .next (Machine.raise e s'))
    (hw : s'.port = none ∧ s'.rst = false) (hu : Undisturbed s') (hsink : s'.sink = s.sink) (hnone : NoneSent s') :
    ParsesTo s (resultOf s' ([], some e)) :=
  .step hstep hsink (RunsTo.parsesTo (.of_sFin (s := Machine.raise e s') ⟨rfl, hw⟩ hu) hnone (by simp))

/-! ### The padding chain -/

/-- The header of the Code 3 packet was read and the padding's registers are still START's (R165, R31 to R33). -/
def HeaderRead (toc : TocInfo) (h : Byte) (s : State) : Prop :=
  s.regs.tocInfo = toc ∧ s.regs.c3Info = c3InfoOf h ∧ s.dp.vbr = (c3InfoOf h).vbr ∧ s.dp.m = (c3InfoOf h).m
    ∧ s.regs.padInfo = PadInfo.zero ∧ s.regs.padData = PadData.zero ∧ s.regs.padTotal = 0

/-- The result of a packet with padding, from what its chain gives (R142, R143, R167). -/
def afterChain (layout : VbrLayout) (strict : Bool) (pkt : List Byte) (toc : TocInfo) (h : Byte) :
    Option (Nat × Nat) → ParseResult
  | none => noPadding toc (c3InfoOf h) ([], some .lengthOverflow)
  | some (hdr, data) => paddedResult toc h pkt.length hdr data
      (parseC3Frames layout strict (c3InfoOf h).vbr (c3InfoOf h).m.toNat pkt (2 + hdr) (pkt.length - data))

theorem HeaderRead.resultOf {toc : TocInfo} {h : Byte} {s : State} (hh : HeaderRead toc h s) (em : Emitted) :
    resultOf s em = noPadding toc (c3InfoOf h) em := by
  obtain ⟨htoc, hc3, -, -, hinfo, hdata, htotal⟩ := hh
  rw [Machine.resultOf, htoc, hc3, hinfo, hdata, htotal]
  rfl

theorem HeaderRead.parsesTo_raise {toc : TocInfo} {h : Byte} {s s' : State} {e : ParseError} (hh : HeaderRead toc h s')
    (hstep : step s = .next (raise e s')) (hw : s'.port = none ∧ s'.rst = false) (hu : Undisturbed s')
    (hsink : s'.sink = s.sink) (hnone : NoneSent s') : ParsesTo s (noPadding toc (c3InfoOf h) ([], some e)) :=
  hh.resultOf ([], some e) ▸ .of_raise hstep hw hu hsink hnone

/-- The counters after `hdr` chain bytes that announce `data` bytes of padding, and the cursor behind them. -/
def ChainAt (hdr data : Nat) (s : State) : Prop :=
  s.dp.pos.toNat = 2 + hdr ∧ s.dp.padHdr.toNat = hdr ∧ s.dp.padData.toNat = data

/-- No counter leaves its register. -/
theorem ChainAt.count {hdr data len : Nat} {s : State} (h : ChainAt hdr data s) (hfits : 2 + hdr + data ≤ len)
    (hlen : len < 65536) (hleft : 2 + hdr < len) (b : Byte) :
    ChainAt (hdr + 1) (data + padContribution b) (countPadByte b s) := by
  obtain ⟨hpos, hhdr, hdata⟩ := h
  have hb := padContribution_le b
  refine ⟨?_, ?_, ?_⟩
  · exact (toNat_word16 (by omega)).trans (by omega)
  · exact (toNat_word16 (by omega)).trans (by omega)
  · exact (toNat_ofNat_of_lt (by omega)).trans (by omega)

/-- The last chain byte is counted: the padding's registers, the region, and the frames (R143, R167). -/
theorem padded_parsesTo {pkt : List Byte} {s : State} {toc : TocInfo} {h : Byte} {hdr data : Nat}
    (hparse : Parsing pkt s) (hw : Working .sC3p s) (hnone : NoneSent s) (hh : HeaderRead toc h s)
    (hchain : ChainAt hdr data s) (hfits : 2 + hdr + data ≤ pkt.length) :
    ParsesTo (fixRegion (paddingResult s))
      (afterChain s.params.layout s.dp.strict pkt toc h (some (hdr, data))) := by
  obtain ⟨hpos, rfl, rfl⟩ := hchain
  obtain ⟨htoc, hc3, hv, hm, -, -, -⟩ := hh
  have hlen : s.dp.len.toNat = pkt.length := hparse.2.1
  have hlt := s.dp.len.isLt
  have hregion : (fixRegion (paddingResult s)).dp.regionEnd.toNat = pkt.length - s.dp.padData.toNat :=
    (toNat_word16 (show s.dp.len.toNat - s.dp.padData.toNat < 65536 by omega)).trans (by rw [hlen])
  have hframes := c3Frames_runsTo (s := fixRegion (paddingResult s)) hparse ⟨rfl, hw.2⟩ hnone hpos
    (show s.dp.pos.toNat ≤ _ by rw [hregion]; omega) (by rw [hregion]; omega)
  rw [hregion] at hframes
  change RunsTo _ (parseC3Frames s.params.layout s.dp.strict s.dp.vbr s.dp.m.toNat pkt s.dp.pos.toNat _) at hframes
  rw [hv, hm, hpos] at hframes
  have hresult (em : Emitted) : resultOf (fixRegion (paddingResult s)) em
      = paddedResult toc h pkt.length s.dp.padHdr.toNat s.dp.padData.toNat em := by
    rw [paddedResult, ← htoc, ← hc3, ← hlen, word16_toNat]
    rfl
  rw [afterChain, ← hresult]
  exact hframes.parsesTo hnone (parseC3Frames_length_le _ _ _ _ _ (c3InfoOf h).m.isLt _)

/-- PAD_CHAIN from the chain byte on that stands first in `rest`, and the frames after it. -/
theorem padChain_parsesTo {pkt rest : List Byte} {s : State} {toc : TocInfo} {h : Byte} {hdr data : Nat}
    (hparse : Parsing pkt s) (hw : Working .sC3p s) (hpad : s.dp.padf = true) (hnone : NoneSent s)
    (hh : HeaderRead toc h s) (hchain : ChainAt hdr data s) (hfits : 2 + hdr + data ≤ pkt.length)
    (hrest : pkt.drop (2 + hdr) = rest) :
    ParsesTo s (afterChain s.params.layout s.dp.strict pkt toc h (padChain pkt.length rest hdr data)) := by
  obtain ⟨hu, hlen, -⟩ := id hparse
  have hlt := s.dp.len.isLt
  have hpos := hchain.1
  induction rest generalizing s hdr data with
  | nil =>
    have hend := List.drop_eq_nil_iff.mp hrest
    have hstep := step_of_fsmWork_raise hw hu.2.2 (fsmWork_pad_none hw hpad (by omega))
    exact hh.parsesTo_raise hstep hw.2 hu rfl hnone
  | cons b rest ih =>
    have hleft : 2 + hdr < pkt.length := by
      by_contra hge
      rw [List.drop_eq_nil_of_le (Nat.not_lt.mp hge)] at hrest
      cases hrest
    obtain ⟨hget, htail⟩ : pkt[2 + hdr] = b ∧ pkt.drop (2 + (hdr + 1)) = rest := by
      rwa [List.drop_eq_getElem_cons hleft, List.cons.injEq] at hrest
    have hb : Memory.read s.pktBuf s.dp.pos.toNat = some b := by
      rw [hpos, hparse.read hleft, List.getD_eq_getElem _ _ hleft, hget]
    have hstep := (step_of_fsmWork_run hw hu.2.2 (fsmWork_pad hw hpad (by omega) hb)).trans
      (exec_padOfByte hw hpad b)
    have hcount := hchain.count hfits (hlen ▸ hlt) hleft b
    have htotal : chainTotal (countPadByte b s) = hdr + 1 + (data + padContribution b) := by
      rw [chainTotal, hcount.2.1, hcount.2.2]
    have hadd : padContribution b = if b.toNat = 255 then 254 else b.toNat := rfl
    have hlast : b = 0xFF ↔ b.toNat = 255 := BitVec.toNat_inj.symm
    simp only [padChain, ← hadd]
    by_cases hover : pkt.length - 2 < hdr + 1 + (data + padContribution b)
    · rw [padByte_of_overflow (by rw [htotal, hlen]; exact hover)] at hstep
      rw [if_pos hover]
      exact HeaderRead.parsesTo_raise (s' := countPadByte b s) hh hstep hw.2 hu rfl hnone
    · rw [padByte_of_fits (by rw [htotal, hlen]; omega)] at hstep
      rw [if_neg hover]
      by_cases hb : b = 0xFF
      · rw [if_neg (by simp [hb])] at hstep
        rw [if_pos (hlast.mp hb)]
        exact .step hstep rfl
          (ih (s := countPadByte b s) hparse hw hpad hnone hh hcount (by omega) htail hu hlen hlt hcount.1)
      · rw [if_pos (decide_eq_true hb)] at hstep
        rw [if_neg (mt hlast.mpr hb)]
        exact .step hstep rfl (padded_parsesTo (s := countPadByte b s) hparse hw hnone hh hcount (by omega))

/-! ### Code 3 -/

theorem unpadded_parsesTo {pkt : List Byte} {s : State} {toc : TocInfo} {h : Byte} (hparse : Parsing pkt s)
    (hw : Working .sC3p s) (hpad : s.dp.padf = false) (hnone : NoneSent s) (hh : HeaderRead toc h s)
    (hchain : ChainAt 0 0 s) (hlen2 : 2 ≤ pkt.length) :
    ParsesTo s (noPadding toc (c3InfoOf h) (parseC3Frames s.params.layout s.dp.strict (c3InfoOf h).vbr
      (c3InfoOf h).m.toNat pkt 2 pkt.length)) := by
  obtain ⟨hu, hlen, -⟩ := id hparse
  obtain ⟨hpos, hhdr, hdata⟩ := hchain
  have hlt := s.dp.len.isLt
  have hstep : step s = .next (fixRegion s) := by
    rw [step_of_fsmWork_run hw hu.2.2 (fsmWork_of_sC3p hw.1 hpad), State.c3Current, hpad]
    exact exec_c3Row_of_sC3p hw (hpad ▸ c3Is_current s)
  have hregion : (fixRegion s).dp.regionEnd.toNat = pkt.length :=
    (toNat_word16 (show s.dp.len.toNat - s.dp.padData.toNat < 65536 by omega)).trans (by rw [hlen, hdata, Nat.sub_zero])
  have hframes := c3Frames_runsTo (s := fixRegion s) hparse ⟨rfl, hw.2⟩ hnone
    (show s.dp.pos.toNat = 2 + s.dp.padHdr.toNat by omega) (show s.dp.pos.toNat ≤ _ by rw [hregion]; omega) hregion.le
  rw [hregion] at hframes
  change RunsTo _ (parseC3Frames s.params.layout s.dp.strict s.dp.vbr s.dp.m.toNat pkt s.dp.pos.toNat _) at hframes
  obtain ⟨-, -, hv, hm, -⟩ := id hh
  rw [hv, hm, hpos] at hframes
  refine .step hstep rfl ?_
  exact HeaderRead.resultOf (s := fixRegion s) hh _ ▸
    hframes.parsesTo hnone (parseC3Frames_length_le _ _ _ _ _ (c3InfoOf h).m.isLt _)

/-- The parse that START began has written no result register but TOC_INFO (R222). -/
def OnlyToc (toc : TocInfo) (s : State) : Prop :=
  s.regs.tocInfo = toc ∧ s.regs.c3Info = C3Info.zero ∧ s.regs.padInfo = PadInfo.zero ∧ s.regs.padData = PadData.zero
    ∧ s.regs.padTotal = 0

theorem OnlyToc.resultOf {toc : TocInfo} {s : State} (h : OnlyToc toc s) (em : Emitted) :
    resultOf s em = noPadding toc C3Info.zero em := by
  obtain ⟨htoc, hc3, hinfo, hdata, htotal⟩ := h
  rw [Machine.resultOf, htoc, hc3, hinfo, hdata, htotal]
  rfl

/-- The header's strict checks pass: the padding region, and the frames (R167). -/
theorem accepted_parsesTo {t h : Byte} {rest : List Byte} {s : State} {toc : TocInfo}
    (hparse : Parsing (t :: h :: rest) s) (hw : Working .sC3p s) (hnone : NoneSent s) (hh : HeaderRead toc h s)
    (hpadf : s.dp.padf = (c3InfoOf h).pad) (hchain : ChainAt 0 0 s) (hacc : headerAccepted s.dp.strict toc h) :
    ParsesTo s (parseCode3 s.params.layout s.dp.strict (t :: h :: rest) toc) := by
  have hlen2 : 2 ≤ (t :: h :: rest).length := Nat.le_add_left ..
  cases hpad : (c3InfoOf h).pad with
  | false =>
    rw [parseCode3_unpadded hacc hpad]
    exact unpadded_parsesTo hparse hw (hpadf.trans hpad) hnone hh hchain hlen2
  | true =>
    rw [parseCode3_of_accepted hacc, if_neg (by simp [hpad])]
    exact padChain_parsesTo hparse hw (hpadf.trans hpad) hnone hh hchain hlen2 rfl

/-- The Code 3 packet from its header on. -/
theorem code3_parsesTo {pkt : List Byte} {s : State} {toc : TocInfo} (hparse : Parsing pkt s) (hw : Working .sC3h s)
    (hnone : NoneSent s) (honly : OnlyToc toc s) (hdur : s.dp.dur = toc.dur) :
    ParsesTo s (parseCode3 s.params.layout s.dp.strict pkt toc) := by
  obtain ⟨hu, hlen, -⟩ := id hparse
  have hshort (hlt : pkt.length < 2) : ParsesTo s (noPadding toc C3Info.zero ([], some .packetTooSmall)) :=
    honly.resultOf ([], some .packetTooSmall) ▸
      .of_raise (step_of_fsmWork_raise hw hu.2.2 (fsmWork_header_missing hw (hlen.trans_lt hlt))) hw.2 hu rfl hnone
  match pkt with
  | [] => exact hshort (by simp)
  | [_] => exact hshort (by simp)
  | t :: h :: rest =>
    have hlen2 : 2 ≤ (t :: h :: rest).length := Nat.le_add_left ..
    have hstep := (step_of_fsmWork_run hw hu.2.2
      (fsmWork_header hw (hlen ▸ hlen2) (hparse.read (i := 1) hlen2))).trans
      (exec_c3Row_of_sC3h hw (c3InfoOf h).vbr (c3InfoOf h).pad (c3InfoOf h).m)
    obtain ⟨htoc, -, hinfo, hdata, htotal⟩ := honly
    have hh : HeaderRead toc h (withHeader (c3InfoOf h).vbr (c3InfoOf h).pad (c3InfoOf h).m s) :=
      ⟨htoc, rfl, rfl, rfl, hinfo, hdata, htotal⟩
    by_cases hacc : headerAccepted s.dp.strict toc h
    · rw [readHeader_of_passes] at hstep
      · exact .step hstep rfl (accepted_parsesTo
          (s := enterPadding (withHeader (c3InfoOf h).vbr (c3InfoOf h).pad (c3InfoOf h).m s)) hparse ⟨rfl, hw.2⟩
          hnone hh rfl ⟨rfl, rfl, rfl⟩ hacc)
      · exact hacc.imp_right fun ⟨hm, hd⟩ => ⟨fun h0 => hm (by simp [h0]), hdur ▸ hd⟩
    · obtain ⟨hs, hmany⟩ := not_headerAccepted hacc
      by_cases hm : (c3InfoOf h).m = 0
      · rw [readHeader_of_noAudio hs hm] at hstep
        rw [hs, parseCode3_noAudio (by simp [hm])]
        exact hh.parsesTo_raise hstep hw.2 hu rfl hnone
      · have hm' : (c3InfoOf h).m.toNat ≠ 0 := fun h0 => hm (BitVec.eq_of_toNat_eq h0)
        rw [readHeader_of_tooMuchAudio hs hm (hdur ▸ hmany hm')] at hstep
        rw [hs, parseCode3_tooMuchAudio hm' (hmany hm')]
        exact hh.parsesTo_raise hstep hw.2 hu rfl hnone

/-! ### The whole packet -/

/-- The parse from the dispatch on the Code on. -/
theorem afterToc_parsesTo {b : Byte} {rest : List Byte} {s : State} (hparse : Parsing (b :: rest) s)
    (hw : Working .sToc s) (hnone : NoneSent s) (honly : OnlyToc TocInfo.zero s) :
    ParsesTo (afterToc b s) (parse s.params.layout s.dp.strict (b :: rest)) := by
  have hlen : (afterToc b s).dp.len.toNat = (b :: rest).length := hparse.2.1
  have hparse' : Parsing (b :: rest) (afterToc b s) := hparse
  have hnone' : NoneSent (afterToc b s) := hnone
  have honly' : OnlyToc (tocInfoOf b) (afterToc b s) := ⟨rfl, honly.2⟩
  have hw' {f : Fsm} (hf : codeState (tocInfoOf b).code = f) : Working f (afterToc b s) := ⟨hf, hw.2⟩
  have hidx := hnone'.1
  have hu := hparse'.1
  have hend {em : Emitted} (h : RunsTo (afterToc b s) em) (hn : em.1.length ≤ 64) :
      ParsesTo (afterToc b s) (noPadding (tocInfoOf b) C3Info.zero em) := honly'.resultOf em ▸ h.parsesTo hnone' hn
  obtain hc | hc | hc | hc := code_cases (tocInfoOf b).code
  · rw [parse_code0 hc, ← hlen]
    exact hend (code0_runsTo (hw' (by rw [hc]; rfl)) hidx hu) ((emitAll_length_le ..).trans (by simp))
  · rw [parse_code1 hc, ← hlen]
    exact hend (code1_runsTo (hw' (by rw [hc]; rfl)) hidx hu) (parseCode1_length_le ..)
  · rw [parse_code2 hc]
    exact hend (code2_runsTo hparse' (hw' (by rw [hc]; rfl)) hidx) (parseCode2_length_le ..)
  · rw [parse_code3 hc]
    exact code3_parsesTo hparse' (hw' (by rw [hc]; rfl)) hnone' honly' rfl

/-- The parse from S_TOC on. -/
theorem sToc_parsesTo {pkt : List Byte} {s : State} (hparse : Parsing pkt s) (hw : Working .sToc s)
    (hph : s.tocPhase = .config) (hnone : NoneSent s) (honly : OnlyToc TocInfo.zero s) :
    ParsesTo s (parse s.params.layout s.dp.strict pkt) := by
  obtain ⟨hu, hlen, -⟩ := id hparse
  cases pkt with
  | nil =>
    have hstep := step_toc_of_raise hw hu.2.2 (tocWork_empty hph (BitVec.eq_of_toNat_eq hlen))
    rw [parse, ← honly.resultOf]
    exact .of_raise hstep hw.2 hu rfl hnone
  | cons b rest =>
    have hne : s.dp.len ≠ 0 := fun h0 => by simp [h0] at hlen
    exact .of_safeRun (safeRun_tocDecode hw hu.2.2 hph hne (hparse.read (i := 0) (Nat.succ_pos _))) rfl
      (afterToc_parsesTo hparse hw hnone honly)

/-- Settles O57: START leaves S_TOC with nothing sent, and from there the run gives what `parse` gives. -/
theorem fsmAgreesWithParse : Obligations.FsmAgreesWithParse := by
  intro s pkt _ hloaded hu
  have hparse : Parsing pkt (beginParse s) := ⟨hu, hloaded⟩
  exact sToc_parsesTo hparse ⟨rfl, rfl, hu.2.1⟩ rfl ⟨rfl, rfl, rfl, rfl, rfl⟩ ⟨rfl, rfl, rfl, rfl, rfl⟩

end Sys2Proof.Machine
